-- ==== Sys2Proof/Word.lean ====
section
/-! DEFINITION. The words of the DC21: the byte of its two serial lines. Counts, money, volumes and times are natural
numbers or integers, because the spec computes them exactly (R42, R60) and bounds or saturates them by rules of their own. -/

namespace Sys2Proof

/-- One character of the host link or of the card link (R111, R181). -/
abbrev Byte := BitVec 8

/-- A value brought into `lo` to `hi` (00_scope.md, Conventions: "clamped"). -/
def clamp (lo hi x : Nat) : Nat := min hi (max lo x)

end Sys2Proof
end

