-- ==== Sys2Proof/Syntax.lean ====
section
/-! DEFINITION. The commands and events of the DC21: one constructor of `Instr` for each row of spec/opcode_table.json.
A command carries the TAG of its frame (R181) and the raw fields of its payload in the widths of R192 and R193, so that a
code that names nothing can be spelled and is refused by its owner. An event carries what happened at the line concerned. -/

namespace Sys2Proof

/-- A fuelling point, its side of the dispenser and its head (00_scope.md). -/
inductive Side where
  | a
  | b
  deriving DecidableEq, Repr

/-- A fuel grade, 0 to 3. -/
abbrev Grade := Fin 4
/-- A meter, M0 to M5. -/
abbrev Meter := Fin 6
/-- A hose slot: 0 to 3 are A1 to A4, 4 to 7 are B1 to B4 (R192). -/
abbrev Slot := Fin 8

/-- A pair of phase levels of one pulser, high is `true` (R35). -/
structure Phases where
  one : Bool
  two : Bool
  deriving DecidableEq, Repr

/-- Why a host frame was discarded (R181). -/
inductive BadCause where
  | gap
  | length
  | check
  | lineError
  deriving DecidableEq, Repr

/-- The backup cell input (R158). -/
inductive CellReading where
  | good
  | low
  deriving DecidableEq, Repr

/-- Payload of AUTHORIZE (R6, R193). -/
structure AuthorizeArgs where
  point : Byte
  mask : Byte
  presetKind : Byte
  presetValue : BitVec 32
  link : Byte
  deriving DecidableEq, Repr

/-- Payload of SET POINT OPTIONS (R31, R193). -/
structure PointOptionsArgs where
  point : Byte
  margin : BitVec 16
  runUp : BitVec 16
  stagger : BitVec 16
  settle : BitVec 16
  authTimeout : BitVec 16
  suspendLimit : BitVec 16
  deriving DecidableEq, Repr

/-- Payload of SET HOSE (R54, R193). -/
structure HoseArgs where
  slot : Byte
  present : Byte
  grade : Byte
  meter : Byte
  tolerance : Byte
  deriving DecidableEq, Repr

/-- One point of a linearisation table as sent: q in 2 bytes, K in 4 (R193). -/
structure RawTablePoint where
  q : BitVec 16
  k : BitVec 32
  deriving DecidableEq, Repr

/-- Payload of PRICE CHANGE (R80, R193); FFFF hex is "keep" (R192). -/
structure PriceArgs where
  grade0 : BitVec 16
  grade1 : BitVec 16
  grade2 : BitVec 16
  grade3 : BitVec 16
  mode : Byte
  deadline : BitVec 16
  deriving DecidableEq, Repr

/-- Payload of CARD MODE (R112, R193). -/
structure CardModeArgs where
  mode : Byte
  baud : Byte
  gap : Byte
  ready : Byte
  reply : Byte
  deriving DecidableEq, Repr

/-- One wake step as sent: action, wait, head, time, outcome (R193). -/
structure RawStep where
  action : Byte
  wait : Byte
  head : Byte
  time : BitVec 16
  outcome : Byte
  deriving DecidableEq, Repr

/-- The forty commands of the host, codes 01 to 28 hex in the order of R193, with their payload fields. -/
inductive Command where
  | identify
  | readLink
  | setLinkTimeout (seconds : Byte)
  | authorize (args : AuthorizeArgs)
  | cancel (point : Byte)
  | stop (point : Byte)
  | suspend (point : Byte)
  | resume (point unlink : Byte)
  | openPoint (point : Byte)
  | closePoint (point : Byte)
  | restartPoint (point : Byte)
  | clearSale (point : Byte) (number : BitVec 16)
  | readSale (point : Byte) (selector : BitVec 16)
  | setPointOptions (args : PointOptionsArgs)
  | setHose (args : HoseArgs)
  | setMeterTable (meter : Byte) (points : List RawTablePoint)
  | setMeterLimits (meter phaseLimit flowLimit : Byte)
  | readMetrology (kind value : Byte)
  | priceChange (args : PriceArgs)
  | cancelPriceChange
  | readPrices
  | readHead (head : Byte)
  | cardMode (args : CardModeArgs)
  | cardRestart
  | cardStop
  | cardTake
  | cardSend (content : List Byte)
  | readCard
  | readFault (domain : Byte)
  | clearFault (domain token : Byte)
  | setTotals (slot : Byte) (volume money : BitVec 64)
  | readTotals (slot : Byte)
  | recall (point : Byte)
  | wake
  | sleep
  | setClock (value : BitVec 32)
  | setSchedule (wake sleep : BitVec 32) (onLift : Byte)
  | setWakeSequence (steps : List RawStep)
  | setRestorePolicy (policy : Byte)
  | readPower
  deriving DecidableEq, Repr

/-- The rows of spec/opcode_table.json. `switchClosed` is the level of the metrology switch input when the row is taken: no
row of its own changes that input (log entry 5). -/
inductive Instr where
  | identify (tag : Byte)
  | readLink (tag : Byte)
  | setLinkTimeout (tag : Byte) (seconds : Byte)
  | authorize (tag : Byte) (args : AuthorizeArgs)
  | cancel (tag : Byte) (point : Byte)
  | stop (tag : Byte) (point : Byte)
  | suspend (tag : Byte) (point : Byte)
  | resume (tag : Byte) (point unlink : Byte)
  | openPoint (tag : Byte) (point : Byte)
  | closePoint (tag : Byte) (point : Byte)
  | restartPoint (tag : Byte) (point : Byte)
  | clearSale (tag : Byte) (point : Byte) (number : BitVec 16)
  | readSale (tag : Byte) (point : Byte) (selector : BitVec 16)
  | setPointOptions (tag : Byte) (args : PointOptionsArgs)
  | setHose (tag : Byte) (args : HoseArgs) (switchClosed : Bool)
  | setMeterTable (tag : Byte) (meter : Byte) (points : List RawTablePoint) (switchClosed : Bool)
  | setMeterLimits (tag : Byte) (meter phaseLimit flowLimit : Byte) (switchClosed : Bool)
  | readMetrology (tag : Byte) (kind value : Byte) (switchClosed : Bool)
  | priceChange (tag : Byte) (args : PriceArgs)
  | cancelPriceChange (tag : Byte)
  | readPrices (tag : Byte)
  | readHead (tag : Byte) (head : Byte)
  | cardMode (tag : Byte) (args : CardModeArgs)
  | cardRestart (tag : Byte)
  | cardStop (tag : Byte)
  | cardTake (tag : Byte)
  | cardSend (tag : Byte) (content : List Byte)
  | readCard (tag : Byte)
  | readFault (tag : Byte) (domain : Byte)
  | clearFault (tag : Byte) (domain token : Byte)
  | setTotals (tag : Byte) (slot : Byte) (volume money : BitVec 64) (switchClosed : Bool)
  | readTotals (tag : Byte) (slot : Byte)
  | recall (tag : Byte) (point : Byte)
  | wake (tag : Byte)
  | sleep (tag : Byte)
  | setClock (tag : Byte) (value : BitVec 32)
  | setSchedule (tag : Byte) (wake sleep : BitVec 32) (onLift : Byte)
  | setWakeSequence (tag : Byte) (steps : List RawStep)
  | setRestorePolicy (tag : Byte) (policy : Byte)
  | readPower (tag : Byte)
  | goodFrame (kind tag : Byte) (payload : List Byte) (switchClosed : Bool)
  | badFrame (cause : BadCause)
  | interCharacterGap
  | outboundFrameSent (switchClosed : Bool)
  | linkLossTimeout
  | nozzleLift (slot : Slot)
  | nozzleHang (slot : Slot)
  | authorizationTimerExpiry (point : Side)
  | staggerIntervalExpiry
  | runUpExpiry (point : Side)
  | suspendTimerExpiry (point : Side)
  | settleIntervalExpiry (point : Side)
  | runOnTimerExpiry (point : Side)
  | pulserTransition (meter : Meter) (pair : Phases)
  | windowEnd
  | deadlineTimerExpiry
  | headRefresh (head : Side) (echo : List Bool)
  | segmentTestAllOnEnd (head : Side)
  | segmentTestAllOffEnd (head : Side)
  | warmInputChange (head : Side) (warm : Bool)
  | cardByteReceived (byte : Byte)
  | cardLineError
  | cardBreak
  | cardGapExpiry
  | readyTimerExpiry
  | restartOffDelayElapsed
  | cardFrameSent
  | cardTxGapElapsed
  | tamper
  | recordWriteComplete
  | powerFailWarning
  | resetAsserted
  | resetReleased
  | supplyRecovery
  | supplyDip
  | collapse
  | backupCellChange (reading : CellReading)
  | restoreWaitComplete (strapHigh : Bool)
  | scheduledWakeTime
  | scheduledSleepTime
  | wakeWaitTimerExpiry
  | steadyIntervalComplete
  | hostCharacterReceived (byte : Byte) (lineError : Bool)
  | tamperInputClosed
  deriving DecidableEq, Repr

end Sys2Proof
end

