-- ==== Sys2Proof/Decode.lean ====
section
/-! DEFINITION. The words of spec/opcode_table.json. No row of the table gives bits (every row's "fields" is empty and none
has "fixed"): the DC21 takes commands as frames and events at its lines, not as instruction words. The decoding of a frame's
payload into a command (R193) stands in Machine/Codec.lean. -/

namespace Sys2Proof

/-- No row gives bits, so no word spells a row. -/
def decodeTableWord (_nbits _w : Nat) : Option Instr := none

end Sys2Proof
end

