-- ==== Sys2Proof/Config.lean ====
section
/-! DEFINITION. What the spec fixes as constants of the part, and the values it leaves open. An open value is an opaque
constant: nothing evaluates it and no claim rests on a value of it (log entries 6 and 9). -/

namespace Sys2Proof.Config

/-- R188, R163: milliseconds in one second. -/
def second : Nat := 1000
/-- R39: the window, in milliseconds. -/
def window : Nat := 100
/-- R93, R100: the head refresh period, in milliseconds. -/
def refreshPeriod : Nat := 50
/-- R103: the two phases of the segment test, in milliseconds. -/
def allOnTime : Nat := 1000
/-- R103. -/
def allOffTime : Nat := 500
/-- R22: the run-on timer, in milliseconds. -/
def runOnTime : Nat := 10000
/-- R117: the off-delay of the card reader, in milliseconds. -/
def offDelay : Nat := 2000
/-- R162: the restore wait, in milliseconds. -/
def restoreWait : Nat := 1000
/-- R175: the steady interval, in milliseconds. -/
def steadyTime : Nat := 2000
/-- R181: silence longer than this many milliseconds ends a host frame. -/
def interCharacterGap : Nat := 10
/-- R144: the write time of the metrology record, in milliseconds. -/
def metrologyWriteTime : Nat := 5
/-- R144: the write time of every other record, in milliseconds. -/
def recordWriteTime : Nat := 1
/-- R171: seconds in one day. -/
def day : Nat := 86400
/-- R35, R40: the running count of a window lies within this bound on either side. -/
def countLimit : Int := 4095
/-- 00_scope.md: nanolitres in one centilitre. -/
def nlPerCl : Nat := 10000000
/-- R46, R60: the largest figure of a head, in cL or in cents. -/
def figureCap : Nat := 999999
/-- R63, R65: presets and capacity bounds stop here. -/
def presetCap : Nat := 999000
/-- R44: V and D saturate here (signed 64-bit field). -/
def maxInt64 : Nat := 9223372036854775807
/-- R149: total volume and total money add modulo this. -/
def totalsModulus : Nat := 1000000000000
/-- R120: the inbound ring holds at most this many frames. -/
def inboundFrames : Nat := 8
/-- R120: and at most this many bytes, a frame costing its content length plus 2. -/
def inboundBytes : Nat := 1024
/-- R123. -/
def outboundFrames : Nat := 4
/-- R123. -/
def outboundBytes : Nat := 512
/-- R113, R115, R181: the longest content of a card frame and the longest payload of a host frame. -/
def contentLimit : Nat := 250
/-- R180, R183: places of the inbound queue. -/
def queuePlaces : Nat := 4
/-- R180: reply slots. -/
def replySlots : Nat := 4
/-- R33, R37, R149, R180: 16-bit counters that saturate. -/
def countCap : Nat := 65535

/-- What a reply must code and chapter 11 gives no code for. -/
inductive Uncoded where
  /-- R91: "applied" in the DONE reply of PRICE CHANGE. -/
  | priceApplied
  /-- R91: "pending" in the DONE reply of PRICE CHANGE. -/
  | pricePending
  /-- R108: last-sale figures NONE. -/
  | lastSaleNone
  /-- R108: last-sale figures held. -/
  | lastSaleFigures
  /-- R108: last-sale figures DAMAGED. -/
  | lastSaleDamaged
  /-- R108: a warm input that reads cold. -/
  | readsCold
  /-- R108: a warm input that reads warm. -/
  | readsWarm
  /-- R130: a tamper input that reads closed. -/
  | tamperClosed
  /-- R130: a tamper input that reads open. -/
  | tamperOpen
  deriving DecidableEq, Repr

/-- FREE VALUE (log entry 9): the byte that stands for a result chapter 11 does not code. -/
opaque wireCode : Uncoded → Byte

/-- FREE VALUE (log entry 9): the reply KIND of a command frame whose KIND names no command (R184, R193). -/
opaque unknownReplyKind : Byte → Byte

/-- FREE VALUE (log entry 9): whether a remaining time of so many milliseconds, no whole number of seconds, is reported as
the next higher second. -/
opaque roundsUp : Nat → Bool

end Sys2Proof.Config
end

