-- ==== Sys2Proof/Machine/State.lean ====
section
/-! DEFINITION. The state of the DC21, block by block as 00_scope.md lists the blocks, each field named after the item of
its block's table (R1, R2, R13, R33, R52, R76, R92, R110, R131, R143, R157, R180). Times are absolute, in milliseconds
(`State.now`); a running timer is the moment at which it expires (log entry 2). -/

namespace Sys2Proof.Machine

/-- One item for each of the two sides. -/
structure Sides (α : Type) where
  a : α
  b : α
  deriving DecidableEq, Repr

def Sides.get {α : Type} (x : Sides α) : Side → α
  | .a => x.a
  | .b => x.b

def Sides.set {α : Type} (x : Sides α) (p : Side) (v : α) : Sides α :=
  match p with
  | .a => { x with a := v }
  | .b => { x with b := v }

/-- Why a state stops. No command and no event of the DC21 stops the part: a refused command is answered REFUSED (R185) and
the machine goes on, so there is no fault to name. -/
inductive Fault where
  deriving DecidableEq, Repr

/-- Why a row has no outcome. -/
inductive Refusal where
  /-- Raised by an arm of `exec` whose row has no meaning yet; safe. No arm does. -/
  | notModelled (mnemonic : String)
  deriving DecidableEq, Repr

/-! ### The inputs -/

/-- The input lines of the part that keep a level (00_scope.md, Signals and supply; the supply monitor and the backup cell
stand with the power controller that reads them at every change). -/
structure Pins where
  /-- nozzle switches, `true` while the nozzle is up (R4) -/
  nozzleUp : Vector Bool 8
  /-- pulser phases (R35) -/
  phases : Vector Phases 6
  /-- warm inputs of the heads, `true` is warm (R105) -/
  warm : Sides Bool
  /-- tamper input, `true` while the housing is open (R129) -/
  tamperOpen : Bool
  /-- metrology switch, `true` while closed (R53) -/
  metrologyClosed : Bool
  /-- reset input, `true` while asserted (R159) -/
  resetAsserted : Bool
  deriving DecidableEq, Repr

/-! ### Points and sales (chapter 1) -/

inductive PointState where
  | closed
  | idle
  | calling
  | authorized
  | starting
  | fuelling
  | slowdown
  | suspended
  | stopping
  | halted
  deriving DecidableEq, Repr

/-- R1: the state a suspended point returns to. -/
inductive ResumeState where
  | fuelling
  | slowdown
  deriving DecidableEq, Repr

/-- R6, R63: the preset of an entry, with its stored value. -/
inductive Preset where
  | volume (cl : Nat)
  | money (cents : Nat)
  deriving DecidableEq, Repr

/-- R6: the link of an entry or of a sale. -/
inductive LinkKind where
  | none
  | card
  deriving DecidableEq, Repr

/-- Section 1.4: an authorization entry. Bit g of the mask stands for grade g (R192). -/
structure Entry where
  mask : BitVec 4
  preset : Option Preset
  link : LinkKind
  generation : BitVec 8
  deriving DecidableEq, Repr

/-- R8. -/
inductive VoidCause where
  | cancel
  | timeout
  | price
  | link
  | card
  | close
  | halt
  deriving DecidableEq, Repr

/-- R21, R72. -/
inductive EndReason where
  | nozzle
  | hostStop
  | preset
  | capacity
  | fault
  | suspendLimit
  | power
  deriving DecidableEq, Repr

/-- R65. -/
inductive TargetSource where
  | preset
  | capacity
  deriving DecidableEq, Repr

/-- R2: the record of one sale. -/
structure SaleRecord where
  point : Side
  number : BitVec 16
  hose : Slot
  grade : Grade
  unitPrice : Nat
  generation : BitVec 8
  /-- V, nL (R44) -/
  v : Nat
  /-- D, nL (R44) -/
  d : Nat
  backflowRaised : Bool
  /-- displayed volume, cL (R46) -/
  displayed : Nat
  /-- cents (R60) -/
  money : Nat
  preset : Option Preset
  target : Nat
  targetSource : TargetSource
  slowdown : Nat
  link : LinkKind
  phaseErrors : Nat
  endReason : Option EndReason
  unverified : Bool
  overrun : Bool
  capacity : Bool
  unlinked : Bool
  recovered : Bool
  deriving DecidableEq, Repr

/-- R9: the three start-blocked reports. -/
structure Reports where
  gradeNotAllowed : Bool
  hoseBlocked : Bool
  cardNotOpen : Bool
  deriving DecidableEq, Repr

def Reports.clear : Reports := ⟨false, false, false⟩

/-- R11: the run-up interval. -/
inductive RunUp where
  | stopped
  | running (due : Nat)
  | expired
  deriving DecidableEq, Repr

/-- R22: the settle interval and the length it keeps through one STOPPING (R31). -/
structure Settle where
  due : Nat
  length : Nat
  deriving DecidableEq, Repr

/-- R31, the five options held per point: cL, ms, ms, s, s. -/
structure PointOptions where
  margin : Nat
  runUp : Nat
  settle : Nat
  authTimeout : Nat
  suspendLimit : Nat
  deriving DecidableEq, Repr

/-- R31, column "Default". -/
def PointOptions.default : PointOptions := ⟨50, 500, 1500, 120, 300⟩

/-- R1: what a point controller holds. -/
structure Point where
  state : PointState
  nozzles : List Slot
  entry : Option Entry
  authDue : Option Nat
  sale : Option SaleRecord
  resume : Option ResumeState
  suspendDue : Option Nat
  runUp : RunUp
  settle : Option Settle
  runOnDue : Option Nat
  stack : List SaleRecord
  closing : Bool
  lastNumber : BitVec 16
  lastVoid : Option VoidCause
  lastEnd : Option EndReason
  reports : Reports
  options : PointOptions
  /-- the motor relay as the arbiter's grant and R15 leave it -/
  relay : Bool
  /-- "segment test passed" has been reported for the current sale (R103) -/
  testPassed : Bool
  deriving DecidableEq, Repr

/-- R1, column "after restore", for a nozzle list, options and last sale number the restore path supplies. -/
def Point.afterRestore : Point where
  state := .closed
  nozzles := []
  entry := none
  authDue := none
  sale := none
  resume := none
  suspendDue := none
  runUp := .stopped
  settle := none
  runOnDue := none
  stack := []
  closing := false
  lastNumber := 0
  lastVoid := none
  lastEnd := none
  reports := .clear
  options := .default
  relay := false
  testPassed := false

/-- R13: the motor start arbiter. -/
structure Arbiter where
  requests : List Side
  lastGrant : Option Nat
  /-- ms -/
  stagger : Nat
  deriving DecidableEq, Repr

/-- R31, column "Default": the stagger. -/
def Arbiter.defaultStagger : Nat := 500

/-- R13. -/
def Arbiter.afterRestore : Arbiter := ⟨[], none, Arbiter.defaultStagger⟩

/-! ### Meters and metrology (chapter 2) -/

/-- R33: what the meter unit holds for one meter. -/
structure MeterUnit where
  reference : Phases
  count : Int
  overrange : Bool
  lastOverrange : Bool
  lastCount : Int
  holder : Option Side
  /-- U, nL (R49) -/
  u : Int
  limitMark : Bool
  idleErrors : Nat
  deriving DecidableEq, Repr

/-- R33, column "after restore". -/
def MeterUnit.afterRestore (levels : Phases) : MeterUnit := ⟨levels, 0, false, false, 0, none, 0, false, 0⟩

/-- The six meters and the moment of their common next window end (R39). -/
structure Meters where
  units : Vector MeterUnit 6
  windowDue : Nat
  deriving DecidableEq, Repr

/-- R52: a present hose slot, tolerance in cL. -/
structure Hose where
  grade : Grade
  meter : Meter
  tolerance : Nat
  deriving DecidableEq, Repr

/-- R42: one point of a linearisation table. -/
structure TablePoint where
  q : Nat
  k : Nat
  deriving DecidableEq, Repr

/-- R52: the settings of one meter; the flow limit in cL. -/
structure MeterSettings where
  table : List TablePoint
  phaseLimit : Nat
  flowLimit : Nat
  deriving DecidableEq, Repr

/-- R52, column "Default". -/
def MeterSettings.default : MeterSettings := ⟨[⟨1, 1000000⟩, ⟨4095, 1000000⟩], 8, 5⟩

/-- R52: the metrology data as its record keeps it. -/
structure MetrologyData where
  hoses : Vector (Option Hose) 8
  meters : Vector MeterSettings 6
  audit : BitVec 32
  deriving DecidableEq, Repr

/-- R52: the working copy when the record is blank. -/
def MetrologyData.blank : MetrologyData := ⟨Vector.replicate 8 none, Vector.replicate 6 .default, 0⟩

/-- R52: the working copy and the damaged mark, which the record does not keep. -/
structure Metrology where
  data : MetrologyData
  damaged : Bool
  deriving DecidableEq, Repr

/-! ### Prices (chapter 4) -/

/-- R76: prices of the four grades, `none` is unset (or "keep" in a change). -/
abbrev PriceSet := Vector (Option Nat) 4

/-- R84, R86: the mode of a pending set. -/
inductive PendingMode where
  | atIdle
  | atWake
  deriving DecidableEq, Repr

/-- R76: a pending set; the deadline in seconds, 0 for none. -/
structure PendingSet where
  entries : PriceSet
  mode : PendingMode
  deadline : Nat
  affected : BitVec 4
  deriving DecidableEq, Repr

/-- R76. -/
inductive PriceOutcome where
  | accepted
  | applied
  | superseded
  | expired
  | cancelled
  | restoreDiscard
  deriving DecidableEq, Repr

/-- R76: a last outcome with the generation it refers to. -/
structure OutcomeAt where
  outcome : PriceOutcome
  generation : BitVec 8
  deriving DecidableEq, Repr

/-- R76: the price table. -/
structure PriceTable where
  active : PriceSet
  generation : BitVec 8
  pending : Option PendingSet
  deadlineDue : Option Nat
  lastOutcome : Option OutcomeAt
  superseded : Bool
  deriving DecidableEq, Repr

/-- R78: all four grades unset. -/
def PriceSet.unset : PriceSet := Vector.replicate 4 none

/-- R76, R78 with a blank record. -/
def PriceTable.afterRestore : PriceTable := ⟨PriceSet.unset, 0, none, none, none, false⟩

/-! ### Display heads (chapter 5) -/

/-- R94: what a digit shows; `allOn` is the digit of a field shown all on. -/
inductive Glyph where
  | digit (n : Nat)
  | dash
  | blank
  | allOn
  deriving DecidableEq, Repr

/-- R94: one digit, a glyph and its decimal point. -/
structure Digit where
  glyph : Glyph
  point : Bool
  deriving DecidableEq, Repr

/-- R97. -/
inductive ContentKind where
  | dark
  | closed
  | halted
  | lastSale
  | testOn
  | testOff
  | running
  deriving DecidableEq, Repr

/-- R92. -/
inductive RefreshResult where
  | none
  | matched
  | mismatched
  deriving DecidableEq, Repr

/-- R92, R103: the test phase with the time it began. -/
inductive TestPhase where
  | none
  | allOn (since : Nat)
  | allOff (since : Nat)
  deriving DecidableEq, Repr

/-- R98. -/
inductive LastSale where
  | none
  | figures (cl cents : Nat) (unverified : Bool)
  | damaged
  deriving DecidableEq, Repr

/-- R92: what the display unit holds for one head. -/
structure Head where
  power : Bool
  heaterEnabled : Bool
  warm : Bool
  coldMark : Bool
  content : ContentKind
  image : Option (List Digit)
  result : RefreshResult
  mismatches : Nat
  test : TestPhase
  lastSale : LastSale
  refreshDue : Nat
  deriving DecidableEq, Repr

/-- R92, column "after restore". -/
def Head.afterRestore (warm : Bool) : Head :=
  ⟨false, false, warm, false, .dark, none, .none, 0, .none, .none, 0⟩

/-! ### Card channel (chapter 6) -/

inductive CardState where
  | off
  | starting
  | opened
  | contained
  deriving DecidableEq, Repr

inductive CardMode where
  | framed
  | gap
  deriving DecidableEq, Repr

/-- R111: the four baud rates. -/
inductive Baud where
  | b9600
  | b19200
  | b38400
  | b57600
  deriving DecidableEq, Repr

/-- R112: the containment reply. -/
inductive ContainReply where
  | empty
  | refuse
  deriving DecidableEq, Repr

/-- R110: the card settings; gap in ms, ready timeout in s. -/
structure CardSettings where
  mode : CardMode
  baud : Baud
  gap : Nat
  ready : Nat
  reply : ContainReply
  deriving DecidableEq, Repr

/-- R110, last sentence: the defaults. -/
def CardSettings.default : CardSettings := ⟨.framed, .b19200, 5, 10, .empty⟩

/-- R120: status of a complete frame. -/
inductive FrameStatus where
  | ok
  | check
  | abort
  | truncated
  deriving DecidableEq, Repr

/-- R120: a complete frame of the inbound ring. -/
structure CardFrame where
  content : List Byte
  status : FrameStatus
  deriving DecidableEq, Repr

/-- R110, R113 to R115, R121: the frame in reception. `discarding` is a frame dropped or truncated whose end has not come. -/
inductive Reception where
  | outside
  | inside (bytes : List Byte) (faulty escaped : Bool)
  | discarding
  deriving DecidableEq, Repr

/-- R110: the card channel. -/
structure CardChannel where
  state : CardState
  settings : CardSettings
  lastPowerOff : Nat
  restartPending : Bool
  readyDue : Option Nat
  inbound : List CardFrame
  reception : Reception
  rxLast : Nat
  outbound : List (List Byte)
  /-- the line characters of the frame in transmission, which is the oldest of the outbound ring -/
  transmitting : Option (List Byte)
  txGapDue : Option Nat
  run : Nat
  tamperOpen : Bool
  deriving DecidableEq, Repr

/-- R110, column "after restore". -/
def CardChannel.afterRestore (now : Nat) (tamperOpen : Bool) : CardChannel :=
  ⟨.off, .default, now, false, none, [], .outside, now, [], none, none, 0, tamperOpen⟩

/-! ### Fault captures (chapter 7) -/

inductive Domain where
  | pointA
  | pointB
  | card
  | supply
  deriving DecidableEq, Repr

inductive Severity where
  | note
  | fault
  | halt
  deriving DecidableEq, Repr

/-- Section 7.4: the fault codes. -/
inductive FaultCode where
  | phaseError
  | nozzleConflict
  | runOnLimit
  | displayMismatch
  | rateOverrange
  | meterTaint
  | backflow
  | capacitySaturated
  | snapshotLost
  | totalsLost
  | unattributedFlow
  | displayFault
  | metrologyLost
  | cardBreak
  | lineError
  | frameCheck
  | ringOverflow
  | checkRun
  | readyTimeout
  | tamper
  | brownout
  | clockLost
  | sequenceTimeout
  | settingsLost
  | pricesLost
  | saveIncomplete
  | sequenceAbort
  | supplyUnsteady
  deriving DecidableEq, Repr

/-- R141. -/
inductive Origin where
  | meter (m : Meter)
  | slot (s : Slot)
  | head (p : Side)
  | step (n : Nat)
  deriving DecidableEq, Repr

/-- R131: what a present capture holds of its fault; also one fault arrival (R132). -/
structure FaultRecord where
  code : FaultCode
  severity : Severity
  origin : Option Origin
  sale : Option (BitVec 16)
  deriving DecidableEq, Repr

/-- R131: a capture record; present is `fault ≠ none`. -/
structure Capture where
  fault : Option FaultRecord
  token : BitVec 4
  more : Bool
  deriving DecidableEq, Repr

/-- R131, column "after restore". -/
def Capture.empty : Capture := ⟨none, 0, false⟩

structure Captures where
  pointA : Capture
  pointB : Capture
  card : Capture
  supply : Capture
  deriving DecidableEq, Repr

def Captures.get (c : Captures) : Domain → Capture
  | .pointA => c.pointA
  | .pointB => c.pointB
  | .card => c.card
  | .supply => c.supply

def Captures.set (c : Captures) (d : Domain) (x : Capture) : Captures :=
  match d with
  | .pointA => { c with pointA := x }
  | .pointB => { c with pointB := x }
  | .card => { c with card := x }
  | .supply => { c with supply := x }

/-- R131: all four empty. -/
def Captures.empty : Captures := ⟨.empty, .empty, .empty, .empty⟩

/-! ### Power controller (chapter 9) -/

inductive PowerState where
  | dark
  | restore
  | standby
  | waking
  | run
  | closing
  | powerfail
  deriving DecidableEq, Repr

/-- R157. -/
inductive Supply where
  | aboveRestore
  | between
  | belowWarn
  deriving DecidableEq, Repr

/-- R157. -/
inductive RestoreCause where
  | dark
  | brownout
  | reset
  deriving DecidableEq, Repr

inductive RestorePolicy where
  | hold
  | resume
  deriving DecidableEq, Repr

/-- R173. -/
inductive WakeAction where
  | heater (p : Side)
  | head (p : Side)
  | reader
  | motorSupply
  | openPoint (p : Side)
  deriving DecidableEq, Repr

/-- R173. -/
inductive StepWait where
  | none
  | delay
  | headWarm (p : Side)
  | readerReady
  | supplySteady
  deriving DecidableEq, Repr

/-- R173: the outcome on timeout. -/
inductive StepOutcome where
  | goOn
  | degrade
  | abort
  deriving DecidableEq, Repr

/-- R173: one wake step; time in seconds. -/
structure WakeStep where
  action : WakeAction
  wait : StepWait
  time : Nat
  outcome : StepOutcome
  deriving DecidableEq, Repr

/-- R173: the default table. Where the table shows a dash the field is unused, and the rule gives it no value; the model holds 0 and
CONTINUE there (DESIGN CHOICE, log entry 40). -/
def WakeStep.defaultTable : List WakeStep :=
  [⟨.heater .a, .headWarm .a, 900, .goOn⟩, ⟨.heater .b, .headWarm .b, 900, .goOn⟩,
   ⟨.head .a, .none, 0, .goOn⟩, ⟨.head .b, .none, 0, .goOn⟩,
   ⟨.reader, .readerReady, 15, .degrade⟩, ⟨.motorSupply, .supplySteady, 10, .abort⟩,
   ⟨.openPoint .a, .none, 0, .goOn⟩, ⟨.openPoint .b, .none, 0, .goOn⟩]

/-- R175: a wait in progress (never NONE) and the expiry of its wait timer. -/
structure Wait where
  wait : StepWait
  due : Nat
  deriving DecidableEq, Repr

/-- R165: the pending price set in a summary. -/
inductive PendingFound where
  | none
  | discarded
  | notKnown
  deriving DecidableEq, Repr

/-- R165: a finding with its code, its domain and its origin. -/
structure Finding where
  code : FaultCode
  domain : Domain
  origin : Option Origin
  deriving DecidableEq, Repr

/-- R165: a recovered sale. -/
structure Recovered where
  point : Side
  number : BitVec 16
  deriving DecidableEq, Repr

/-- R165: the last restore summary. -/
structure Summary where
  cause : RestoreCause
  clockKept : Bool
  clockValid : Bool
  pendingSet : PendingFound
  next : Option PowerState
  recovered : List Recovered
  findings : List Finding
  deriving DecidableEq, Repr

/-- The summary before any restore has built one (log entry 1). -/
def Summary.empty : Summary := ⟨.dark, false, false, .none, none, [], []⟩

/-- R160: how far the power-fail save has come: the write it waits for, or complete. -/
inductive SaveStage where
  | draining
  | snapshotA
  | snapshotB
  | power
  | complete
  deriving DecidableEq, Repr

/-- R157: the power controller. -/
structure PowerController where
  state : PowerState
  supply : Supply
  cell : CellReading
  cause : RestoreCause
  resetSeen : Bool
  /-- seconds of day -/
  clock : Nat
  /-- milliseconds into the present second -/
  clockMs : Nat
  /-- the clock advanced into its present second by running, not by SET CLOCK, with the schedule in force (R172) -/
  clockEntered : Bool
  clockValid : Bool
  clockKept : Bool
  pendingPrice : Bool
  loaded : PowerState
  /-- R154: the power state field a queued write of the power record takes -/
  field : PowerState
  wakeTime : Option Nat
  sleepTime : Option Nat
  wakeOnLift : Bool
  table : List WakeStep
  policy : RestorePolicy
  stepIndex : Nat
  wait : Option Wait
  /-- R175: the moment at which the running steady interval began -/
  steadySince : Option Nat
  aborts : Nat
  motorDrive : Bool
  summary : Summary
  /-- R162: the restore wait runs: volatile state has not been set yet -/
  restoreWaiting : Bool
  /-- R162: since when the supply has read ABOVE_RESTORE without a break -/
  aboveSince : Option Nat
  save : Option SaveStage
  /-- R154: the field the save writes -/
  saveField : PowerState
  /-- R162: POWERFAIL was entered from the restore wait -/
  fromWait : Bool
  deriving DecidableEq, Repr

/-! ### Retained store (chapter 8) -/

/-- R149: the totals of one hose slot. -/
structure Totals where
  volume : Nat
  money : Nat
  sales : BitVec 32
  unverified : Nat
  last : BitVec 16
  setCount : BitVec 16
  blocked : Bool
  deriving DecidableEq, Repr

/-- R149, column "Blank value". -/
def Totals.blank : Totals := ⟨0, 0, 0, 0, 0, 0, false⟩

/-- R151: a working snapshot, or the content of a snapshot record. -/
inductive Snapshot where
  | none
  | damaged
  | ended (sale : SaleRecord)
  | power (sale : SaleRecord)
  deriving DecidableEq, Repr

/-- R144: the settings record. -/
structure Settings where
  points : Sides PointOptions
  stagger : Nat
  linkTimeout : Nat
  card : CardSettings
  wakeTime : Option Nat
  sleepTime : Option Nat
  wakeOnLift : Bool
  table : List WakeStep
  policy : RestorePolicy
  deriving DecidableEq, Repr

/-- R152: the defaults, from R31, R110, R157, R173 and R180. -/
def Settings.default : Settings :=
  ⟨⟨.default, .default⟩, Arbiter.defaultStagger, 10, .default, none, none, false, WakeStep.defaultTable, .hold⟩

/-- R144: the price record. -/
structure PriceContent where
  active : PriceSet
  generation : BitVec 8
  deriving DecidableEq, Repr

/-- R154: the power record. -/
structure PowerContent where
  field : PowerState
  saved : Bool
  deriving DecidableEq, Repr

/-- R143, R145: one nonvolatile record: its written marker, its content (`none` before the first write begins) and its check
code. -/
structure Cell (α : Type) where
  written : Bool
  content : Option α
  check : BitVec 16
  deriving DecidableEq, Repr

/-- R145: a record never written. -/
def Cell.blank {α : Type} : Cell α := ⟨false, none, 0⟩

/-- R143: the names of the fourteen records. -/
inductive RecordId where
  | metrology
  | settings
  | price
  | totals (s : Slot)
  | snapshot (p : Side)
  | power
  deriving DecidableEq, Repr

/-- The content a write takes at its beginning (R146). -/
inductive RecordContent where
  | metrology (c : MetrologyData)
  | settings (c : Settings)
  | price (c : PriceContent)
  | totals (s : Slot) (c : Totals)
  | snapshot (p : Side) (c : Snapshot)
  | power (c : PowerContent)
  deriving DecidableEq, Repr

/-- R143: the fourteen records. -/
structure Records where
  metrology : Cell MetrologyData
  settings : Cell Settings
  price : Cell PriceContent
  totals : Vector (Cell Totals) 8
  snapshots : Sides (Cell Snapshot)
  power : Cell PowerContent
  deriving DecidableEq, Repr

/-- All fourteen records blank. -/
def Records.blank : Records :=
  ⟨.blank, .blank, .blank, Vector.replicate 8 .blank, ⟨.blank, .blank⟩, .blank⟩

/-- R146: the write in flight; `stale` when a later handover has changed the snapshot it carries (R151). -/
structure InFlight where
  content : RecordContent
  due : Nat
  stale : Bool
  deriving DecidableEq, Repr

/-- R143: the retained store. -/
structure Store where
  records : Records
  totals : Vector Totals 8
  snapshots : Sides Snapshot
  dirty : Sides Bool
  queue : List RecordId
  inFlight : Option InFlight
  deriving DecidableEq, Repr

/-- R143, column "after restore", for records whose checks follow. -/
def Store.afterRestore (r : Records) : Store :=
  ⟨r, Vector.replicate 8 .blank, ⟨.none, .none⟩, ⟨false, false⟩, [], none⟩

/-! ### Link port (chapter 10) -/

inductive LineSpeed where
  | baud57600
  | baud115200
  deriving DecidableEq, Repr

/-- R181: a frame without its sync, length and check code; a received one is a command (R182). -/
structure Frame where
  kind : Byte
  tag : Byte
  payload : List Byte
  deriving DecidableEq, Repr

/-- An item that a rule says a message reports and to which the layouts of R194 give no byte (log entry 28). -/
inductive Unplaced where
  /-- R21: the end reason in the POINT notice of a point in STOPPING -/
  | endReason (why : EndReason)
  /-- R179: the clock's valid flag in READ POWER and the POWER notice -/
  | clockValid (valid : Bool)
  /-- R165: whether the clock is valid, in the last restore summary -/
  | summaryClockValid (valid : Bool)
  deriving DecidableEq, Repr

/-- R185, R186: a reply or a notice: KIND, TAG and payload of its frame, and beside them what it reports without a byte of its
own (log entry 28). -/
structure Message where
  kind : Byte
  tag : Byte
  payload : List Byte
  unplaced : List Unplaced
  deriving DecidableEq, Repr

/-- R181: the frame that carries a message on the line. -/
def Message.frame (m : Message) : Frame := ⟨m.kind, m.tag, m.payload⟩

/-- R180: the receiver; the bytes after the sync, and when the last character came. -/
inductive Receiver where
  | hunting
  | inFrame (bytes : List Byte) (last : Nat)
  deriving DecidableEq, Repr

/-- What a WAITING reply waits for (R184, R147): its owner's judgement, or a write of a record. `covered` when the next
completion of that record answers it, clear while a write of it that began before the change is in flight. -/
inductive WaitsFor where
  | owner
  | write (r : RecordId) (covered : Bool) (payload : List Byte)
  deriving DecidableEq, Repr

/-- R180: a reply slot whose reply is WAITING. -/
structure WaitingReply where
  kind : Byte
  tag : Byte
  waits : WaitsFor
  deriving DecidableEq, Repr

/-- R186: the eighteen subjects of notices. -/
inductive Subject where
  | point (p : Side)
  | sale (p : Side)
  | meter (m : Meter)
  | fault (d : Domain)
  | card
  | price
  | power
  | link
  deriving DecidableEq, Repr

/-- R186: an occupied notice slot whose notice is queued. Its content is taken afresh when sending begins, so none is held. -/
structure QueuedNotice where
  subject : Subject
  superseded : Bool
  deriving DecidableEq, Repr

/-- R180, R187: the outbound line. `choosing` stands only inside OUTBOUND_FRAME_SENT, between the freeing of a slot and the
arbiter's choice. For a notice: `again`, a raise kept for its subject's next notice (R186); `carries`, its content reports
the superseded mark of the price table (R91). -/
inductive Line where
  | idle
  | choosing
  | reply (f : Message)
  | notice (subject : Subject) (f : Message) (again carries : Bool)
  deriving DecidableEq, Repr

/-- R180: the link port. The four reply slots are the WAITING replies in the order of taking, the FINISHED ones in the order
of finishing, and the reply on the line. -/
structure LinkPort where
  speed : LineSpeed
  receiver : Receiver
  queue : List Frame
  waiting : List WaitingReply
  finished : List Message
  line : Line
  notices : List QueuedNotice
  up : Bool
  timeout : Nat
  lossDue : Option Nat
  badCount : Nat
  lastBad : Option BadCause
  overruns : Nat
  lastOverrun : Option Byte
  deriving DecidableEq, Repr

/-- R180, column "after restore", with the default link timeout. -/
def LinkPort.afterRestore (speed : LineSpeed) : LinkPort :=
  ⟨speed, .hunting, [], [], [], .idle, [], true, 10, none, 0, none, 0, none⟩

/-! ### The whole part -/

/-- The state of the DC21. -/
structure State where
  now : Nat
  pins : Pins
  points : Sides Point
  arbiter : Arbiter
  metrology : Metrology
  meters : Meters
  prices : PriceTable
  heads : Sides Head
  card : CardChannel
  captures : Captures
  store : Store
  power : PowerController
  link : LinkPort
  /-- the rows that wait, first in, first out -/
  pending : List Instr
  deriving DecidableEq, Repr

/-! Named updates: one per field, and one per member of the fields that hold several blocks. -/

def State.withNow (s : State) (x : Nat) : State := { s with now := x }
def State.withPins (s : State) (x : Pins) : State := { s with pins := x }
def State.withPoints (s : State) (x : Sides Point) : State := { s with points := x }
def State.withArbiter (s : State) (x : Arbiter) : State := { s with arbiter := x }
def State.withMetrology (s : State) (x : Metrology) : State := { s with metrology := x }
def State.withMeters (s : State) (x : Meters) : State := { s with meters := x }
def State.withPrices (s : State) (x : PriceTable) : State := { s with prices := x }
def State.withHeads (s : State) (x : Sides Head) : State := { s with heads := x }
def State.withCard (s : State) (x : CardChannel) : State := { s with card := x }
def State.withCaptures (s : State) (x : Captures) : State := { s with captures := x }
def State.withStore (s : State) (x : Store) : State := { s with store := x }
def State.withPower (s : State) (x : PowerController) : State := { s with power := x }
def State.withLink (s : State) (x : LinkPort) : State := { s with link := x }
def State.withPending (s : State) (x : List Instr) : State := { s with pending := x }

def State.point (s : State) (p : Side) : Point := s.points.get p
def State.setPoint (s : State) (p : Side) (x : Point) : State := s.withPoints (s.points.set p x)
def State.head (s : State) (p : Side) : Head := s.heads.get p
def State.setHead (s : State) (p : Side) (x : Head) : State := s.withHeads (s.heads.set p x)
def State.meter (s : State) (m : Meter) : MeterUnit := s.meters.units.get m
def State.setMeter (s : State) (m : Meter) (x : MeterUnit) : State :=
  s.withMeters { s.meters with units := s.meters.units.set m x }
def State.capture (s : State) (d : Domain) : Capture := s.captures.get d
def State.setCapture (s : State) (d : Domain) (x : Capture) : State := s.withCaptures (s.captures.set d x)
def State.hose (s : State) (h : Slot) : Option Hose := s.metrology.data.hoses.get h
def State.meterSettings (s : State) (m : Meter) : MeterSettings := s.metrology.data.meters.get m
def State.totals (s : State) (h : Slot) : Totals := s.store.totals.get h
def State.setTotals (s : State) (h : Slot) (t : Totals) : State :=
  s.withStore { s.store with totals := s.store.totals.set h t }

/-- The inputs before the first event (log entry 3). -/
def Pins.initial : Pins where
  nozzleUp := Vector.replicate 8 false
  phases := Vector.replicate 6 ⟨false, false⟩
  warm := ⟨false, false⟩
  tamperOpen := false
  metrologyClosed := false
  resetAsserted := false

/-- R157, column "after restore", but for the power state: R161 starts a part that receives its first supply in DARK, with
a backup domain never kept (R158). -/
def PowerController.initial : PowerController where
  state := .dark
  supply := .belowWarn
  cell := .good
  cause := .dark
  resetSeen := false
  clock := 0
  clockMs := 0
  clockEntered := false
  clockValid := false
  clockKept := false
  pendingPrice := false
  loaded := .standby
  field := .standby
  wakeTime := none
  sleepTime := none
  wakeOnLift := false
  table := WakeStep.defaultTable
  policy := .hold
  stepIndex := 0
  wait := none
  steadySince := none
  aborts := 0
  motorDrive := false
  summary := .empty
  restoreWaiting := false
  aboveSince := none
  save := none
  saveField := .standby
  fromWait := false

/-- The part before its first supply (R161), every volatile item at its value after restore (log entry 1). -/
def State.reset : State where
  now := 0
  pins := .initial
  points := ⟨.afterRestore, .afterRestore⟩
  arbiter := .afterRestore
  metrology := ⟨.blank, false⟩
  meters := ⟨Vector.replicate 6 (.afterRestore ⟨false, false⟩), 0⟩
  prices := .afterRestore
  heads := ⟨.afterRestore false, .afterRestore false⟩
  card := .afterRestore 0 false
  captures := .empty
  store := .afterRestore .blank
  power := .initial
  link := .afterRestore .baud57600
  pending := []

end Sys2Proof.Machine
end

