-- ==== Sys2Proof/Machine/Operands.lean ====
section
/-! DEFINITION. The received fields of R192 and R193: which thing a code names, and the values that are clamped. `none` is a
code that names nothing, which the owner refuses RANGE. -/

namespace Sys2Proof.Machine

/-- R192: point, head. -/
def sideOf (b : Byte) : Option Side := if b = 0 then some .a else if b = 1 then some .b else none

/-- R192: hose slot. -/
def slotOf (b : Byte) : Option Slot := if h : b.toNat < 8 then some ⟨b.toNat, h⟩ else none

/-- R192: meter. -/
def meterOf (b : Byte) : Option Meter := if h : b.toNat < 6 then some ⟨b.toNat, h⟩ else none

/-- R192: grade. -/
def gradeOf (b : Byte) : Option Grade := if h : b.toNat < 4 then some ⟨b.toNat, h⟩ else none

/-- R192: a grade mask with any of bits 4 to 7 set, or with no bit set, names nothing. -/
def maskOf (b : Byte) : Option (BitVec 4) :=
  if b.toNat < 16 ∧ b ≠ 0 then some (b.setWidth 4) else none

/-- R192: flag or mark. -/
def flagOf (b : Byte) : Option Bool := if b = 0 then some false else if b = 1 then some true else none

/-- R192: domain. -/
def domainOf (b : Byte) : Option Domain :=
  if b = 0 then some .pointA else if b = 1 then some .pointB else if b = 2 then some .card
  else if b = 3 then some .supply else none

/-- R193: link. -/
def linkOf (b : Byte) : Option LinkKind := if b = 0 then some .none else if b = 1 then some .card else none

/-- R63: the stored preset value. -/
def presetValue (v : Nat) : Nat := clamp 1 Config.presetCap v

/-- R63, R193: the preset of an entry and its adjusted mark. -/
def presetOf (kind : Byte) (v : Nat) : Option (Option Preset × Bool) :=
  if kind = 0 then some (none, false)
  else if kind = 1 then some (some (.volume (presetValue v)), decide (presetValue v ≠ v))
  else if kind = 2 then some (some (.money (presetValue v)), decide (presetValue v ≠ v))
  else none

/-- R31: authorization timeout and suspend limit; 0 is "none". -/
def timeoutOf (v : Nat) : Nat := if v = 0 then 0 else clamp 10 600 v

/-- R80: the deadline; 0 is none. -/
def deadlineOf (v : Nat) : Nat := if v = 0 then 0 else clamp 10 3600 v

/-- R189: the link timeout; 0 turns link-loss detection off. -/
def linkTimeoutOf (v : Nat) : Nat := if v = 0 then 0 else clamp 2 120 v

/-- R31: the values of SET POINT OPTIONS as stored. -/
def pointOptionsOf (x : PointOptionsArgs) : PointOptions :=
  ⟨clamp 0 2000 x.margin.toNat, clamp 0 3000 x.runUp.toNat, clamp 500 5000 x.settle.toNat,
   timeoutOf x.authTimeout.toNat, timeoutOf x.suspendLimit.toNat⟩

/-- R31: the stagger as stored. -/
def staggerOf (x : PointOptionsArgs) : Nat := clamp 0 5000 x.stagger.toNat

/-- R31: whether any of the six values was clamped. -/
def pointOptionsAdjusted (x : PointOptionsArgs) : Bool :=
  let o := pointOptionsOf x
  decide (o.margin ≠ x.margin.toNat ∨ o.runUp ≠ x.runUp.toNat ∨ o.settle ≠ x.settle.toNat ∨
    o.authTimeout ≠ x.authTimeout.toNat ∨ o.suspendLimit ≠ x.suspendLimit.toNat ∨
    staggerOf x ≠ x.stagger.toNat)

/-- R54: the entry of a SET HOSE, `some none` makes the slot absent. The grade, meter and tolerance are then ignored. -/
def hoseOf (x : HoseArgs) : Option (Option Hose) :=
  match flagOf x.present with
  | none => none
  | some false => some none
  | some true =>
    match gradeOf x.grade, meterOf x.meter with
    | some g, some m => if x.tolerance.toNat ≤ 50 then some (some ⟨g, m, x.tolerance.toNat⟩) else none
    | _, _ => none

/-- R55: the q values are strictly ascending. -/
def ascending : List TablePoint → Bool
  | x :: y :: rest => decide (x.q < y.q) && ascending (y :: rest)
  | _ => true

/-- R55: a valid linearisation table. -/
def tableOf (points : List RawTablePoint) : Option (List TablePoint) :=
  let t := points.map fun x => (⟨x.q.toNat, x.k.toNat⟩ : TablePoint)
  if 2 ≤ t.length ∧ t.length ≤ 6 ∧ (t.all fun x => decide (1 ≤ x.q ∧ x.q ≤ 4095 ∧ 100000 ≤ x.k ∧ x.k ≤ 5000000)) ∧
      ascending t
  then some t else none

/-- R80, R192: one entry of PRICE CHANGE; `some none` is "keep". -/
def priceEntryOf (w : BitVec 16) : Option (Option Nat) :=
  if w = 0xFFFF then some none else if 1 ≤ w.toNat ∧ w.toNat ≤ 9999 then some (some w.toNat) else none

/-- R80: the four entries. -/
def priceEntriesOf (x : PriceArgs) : Option PriceSet :=
  match priceEntryOf x.grade0, priceEntryOf x.grade1, priceEntryOf x.grade2, priceEntryOf x.grade3 with
  | some p, some q, some r, some t => some #v[p, q, r, t]
  | _, _, _, _ => none

/-- R80, R193: the mode of PRICE CHANGE; `some none` is NOW. -/
def priceModeOf (b : Byte) : Option (Option PendingMode) :=
  if b = 0 then some none else if b = 1 then some (some .atIdle) else if b = 2 then some (some .atWake) else none

/-- R193: the card mode. -/
def cardModeOf (b : Byte) : Option CardMode := if b = 0 then some .framed else if b = 1 then some .gap else none

/-- R193: the baud rate. -/
def baudOf (b : Byte) : Option Baud :=
  if b = 0 then some .b9600 else if b = 1 then some .b19200 else if b = 2 then some .b38400
  else if b = 3 then some .b57600 else none

/-- R193: the containment reply. -/
def containReplyOf (b : Byte) : Option ContainReply := if b = 0 then some .empty else if b = 1 then some .refuse else none

/-- R112: the settings of CARD MODE as stored; gap time and ready timeout are clamped. -/
def cardSettingsOf (x : CardModeArgs) : Option CardSettings :=
  match cardModeOf x.mode, baudOf x.baud, containReplyOf x.reply with
  | some m, some r, some c => some ⟨m, r, clamp 2 50 x.gap.toNat, clamp 1 30 x.ready.toNat, c⟩
  | _, _, _ => none

/-- R112: whether gap time or ready timeout was clamped. -/
def cardSettingsAdjusted (x : CardModeArgs) : Bool :=
  decide (clamp 2 50 x.gap.toNat ≠ x.gap.toNat ∨ clamp 1 30 x.ready.toNat ≠ x.ready.toNat)

/-- R171, R172, R192: an optional scheduled time. -/
def timeOf (w : BitVec 32) : Option (Option Nat) :=
  if w = 0xFFFFFFFF then some none else if w.toNat < Config.day then some (some w.toNat) else none

/-- R193: the restore policy. -/
def policyOf (b : Byte) : Option RestorePolicy := if b = 0 then some .hold else if b = 1 then some .resume else none

/-- R193: the action of a wake step. -/
def actionOf (b : Byte) : Option WakeAction :=
  if b = 0 then some (.heater .a) else if b = 1 then some (.heater .b) else if b = 2 then some (.head .a)
  else if b = 3 then some (.head .b) else if b = 4 then some .reader else if b = 5 then some .motorSupply
  else if b = 6 then some (.openPoint .a) else if b = 7 then some (.openPoint .b) else none

/-- R193, R194: the wait of a wake step; the head byte is read only for HEAD_WARM. -/
def stepWaitOf (b head : Byte) : Option StepWait :=
  if b = 0 then some .none else if b = 1 then some .delay
  else if b = 2 then (sideOf head).map .headWarm
  else if b = 3 then some .readerReady else if b = 4 then some .supplySteady else none

/-- R193: the outcome of a wake step. -/
def outcomeOf (b : Byte) : Option StepOutcome :=
  if b = 0 then some .goOn else if b = 1 then some .degrade else if b = 2 then some .abort else none

/-- R173: one wake step; a time above 1,800 s is clamped. -/
def wakeStepOf (x : RawStep) : Option WakeStep :=
  match actionOf x.action, stepWaitOf x.wait x.head, outcomeOf x.outcome with
  | some a, some w, some o => some ⟨a, w, clamp 0 1800 x.time.toNat, o⟩
  | _, _, _ => none

/-- R173: a whole table. -/
def wakeTableOf (steps : List RawStep) : Option (List WakeStep) :=
  if steps.length ≤ 8 then steps.mapM wakeStepOf else none

/-- R173: whether any time was clamped. -/
def wakeTableAdjusted (steps : List RawStep) : Bool := steps.any fun x => decide (1800 < x.time.toNat)

/-- R59, R193: what READ METROLOGY asks for. -/
inductive MetrologySelector where
  | summary
  | slot (h : Slot)
  | meter (m : Meter)
  deriving DecidableEq, Repr

/-- R59, R193: the selector of READ METROLOGY; SUMMARY reads no value byte and takes any (log entry 29). -/
def selectorOf (kind value : Byte) : Option MetrologySelector :=
  if kind = 0 then some .summary
  else if kind = 1 then (slotOf value).map .slot
  else if kind = 2 then (meterOf value).map .meter
  else none

end Sys2Proof.Machine
end

