-- ==== Sys2Proof/Machine/Queries.lean ====
section
/-! DEFINITION. What the blocks read of each other's state: the computed items (lifted hose, owning point, outputs), the
groups of states the rules speak of, and remaining times. Nothing here changes a state. -/

namespace Sys2Proof.Machine

def Side.all : List Side := [.a, .b]
def Meter.all : List Meter := [0, 1, 2, 3, 4, 5]
def Slot.all : List Slot := [0, 1, 2, 3, 4, 5, 6, 7]
def Grade.all : List Grade := [0, 1, 2, 3]

/-- R192: slots 0 to 3 belong to point A, 4 to 7 to point B. -/
def Slot.side (h : Slot) : Side := if h.val < 4 then .a else .b

/-- The slots of a point in slot order (R1). -/
def Side.slots (p : Side) : List Slot := Slot.all.filter fun h => Slot.side h = p

/-- The capture a point's faults go to (R132). -/
def Side.domain : Side → Domain
  | .a => .pointA
  | .b => .pointB

/-! ### Power states -/

/-- R190, R36, R146: the link, the decoders and the write queue run from the reset of volatile state in RESTORE, and in
STANDBY, WAKING, RUN and CLOSING. -/
def State.running (s : State) : Bool :=
  match s.power.state with
  | .standby | .waking | .run | .closing => true
  | .restore => !s.power.restoreWaiting
  | .dark | .powerfail => false

/-- R129, R106: the tamper input and the warm inputs are watched from the reset of volatile state, in POWERFAIL too. -/
def State.watching (s : State) : Bool :=
  s.running || (decide (s.power.state = .powerfail) && !s.power.fromWait)

/-- R180, R188: the power states in which the link-loss timer runs. -/
def State.lossTimed (s : State) : Bool :=
  match s.power.state with
  | .standby | .waking | .run | .closing => true
  | _ => false

/-- R3: the outputs of a point are driven in RUN and CLOSING. -/
def State.delivering (s : State) : Bool :=
  match s.power.state with
  | .run | .closing => true
  | _ => false

/-! ### Points -/

/-- Section 1.2: the sale-active states. -/
def PointState.saleActive : PointState → Bool
  | .starting | .fuelling | .slowdown | .suspended | .stopping => true
  | _ => false

/-- R1: the lifted hose. -/
def Point.lifted (x : Point) : Option Slot := x.nozzles.head?

/-- R26, R8: where a waiting point stands with its nozzle list. -/
def Point.resting (x : Point) : PointState := if x.nozzles.isEmpty then .idle else .calling

/-- R17: the state a suspended point returns to. -/
def ResumeState.toPoint : ResumeState → PointState
  | .fuelling => .fuelling
  | .slowdown => .slowdown

/-- R26: the point has a present hose slot. -/
def State.hasHose (s : State) (p : Side) : Bool := (Side.slots p).any fun h => (s.hose h).isSome

/-- R81, R96: at least one present slot of the point carries the grade. -/
def State.carries (s : State) (p : Side) (g : Grade) : Bool :=
  (Side.slots p).any fun h => (s.hose h).any fun x => decide (x.grade = g)

/-- R34: the owning point of a meter: the point with a present slot that names it. -/
def State.owner (s : State) (m : Meter) : Option Side :=
  (Slot.all.find? fun h => (s.hose h).any fun x => decide (x.meter = m)).map Slot.side

/-- R24, R169: no point is sale-active. -/
def State.noSale (s : State) : Bool :=
  !(s.points.a.state.saleActive || s.points.b.state.saleActive)

/-- R135: the capture of the domain holds HALT. -/
def State.holdsHalt (s : State) (d : Domain) : Bool :=
  (s.capture d).fault.any fun f => decide (f.severity = .halt)

/-- R9: a totals record of the point's slots waits in the write queue or is in flight. -/
def State.totalsPending (s : State) (p : Side) : Bool :=
  (Side.slots p).any fun h =>
    decide (RecordId.totals h ∈ s.store.queue) ||
    (s.store.inFlight.any fun w => match w.content with
      | .totals k _ => decide (k = h)
      | _ => false)

/-- The sale number a fault of the point carries, when the point is sale-active (R101). -/
def State.activeSale (s : State) (p : Side) : Option (BitVec 16) := (s.point p).sale.map (·.number)

/-! ### Outputs -/

/-- R3: a valve output of a slot opens only for the hose of the current sale. -/
def State.saleHose (s : State) (h : Slot) : Bool :=
  s.delivering && (s.point (Slot.side h)).sale.any fun x => decide (x.hose = h)

/-- R3: main valve output of a slot, `true` is open. -/
def State.mainValve (s : State) (h : Slot) : Bool :=
  s.saleHose h && decide ((s.point (Slot.side h)).state = .fuelling)

/-- R3: slow valve output of a slot. -/
def State.slowValve (s : State) (h : Slot) : Bool :=
  s.saleHose h && (decide ((s.point (Slot.side h)).state = .fuelling) ||
    decide ((s.point (Slot.side h)).state = .slowdown))

/-- R3, R170: motor relay output of a point. -/
def State.motorRelay (s : State) (p : Side) : Bool :=
  s.delivering && s.power.motorDrive && (s.point p).relay

/-- R105: heater output of a head. -/
def Head.heater (h : Head) : Bool := h.heaterEnabled && !h.warm

/-- R111: reader power output. -/
def CardState.powered : CardState → Bool
  | .starting | .opened => true
  | .off | .contained => false

/-! ### Rings and slots -/

/-- R120: bytes the complete inbound frames cost. -/
def CardChannel.inboundCost (c : CardChannel) : Nat := (c.inbound.map fun f => f.content.length + 2).sum

/-- R120: free space of the inbound ring. -/
def CardChannel.inboundFree (c : CardChannel) : Nat := Config.inboundBytes - c.inboundCost

/-- R123: bytes the outbound frames cost. -/
def CardChannel.outboundCost (c : CardChannel) : Nat := (c.outbound.map fun f => f.length + 2).sum

/-- R180: reply slots that hold a command: WAITING, FINISHED, or with its reply on the line. -/
def LinkPort.occupied (l : LinkPort) : Nat :=
  l.waiting.length + l.finished.length + (match l.line with
    | .reply _ => 1
    | _ => 0)

/-- R180: free reply slots. -/
def LinkPort.free (l : LinkPort) : Nat := Config.replySlots - l.occupied

/-! ### Remaining times -/

/-- Milliseconds from `now` to `due`. -/
def State.remaining (s : State) (due : Nat) : Nat := due - s.now

/-- A remaining time in seconds. The spec does not say how a part of a second is rounded: free between the two neighbours
(log entry 9). -/
def State.remainingSeconds (s : State) (due : Nat) : Nat :=
  let ms := s.remaining due
  ms / Config.second + (if ms % Config.second ≠ 0 ∧ Config.roundsUp ms then 1 else 0)

/-- R117: milliseconds until the off-delay has elapsed, or 0. -/
def State.offDelayLeft (s : State) : Nat := s.remaining (s.card.lastPowerOff + Config.offDelay)

end Sys2Proof.Machine
end

