-- ==== Sys2Proof/Machine/Figures.lean ====
section
/-! DEFINITION. The figures of a sale: meter factor and window volume (R42, R43), debt and accumulated volume (R44),
displayed volume and money with their caps (R46, R60, R61), targets (R64 to R66), overrun (R71), totals (R150). -/

namespace Sys2Proof.Machine

/-- A signed 64-bit field that saturates (R49). -/
def saturate64 (x : Int) : Int := max (-(Config.maxInt64 : Int) - 1) (min (Config.maxInt64 : Int) x)

/-- An unsigned count that saturates at 65,535 (R33, R37, R149, R180). -/
def bump (n : Nat) : Nat := min Config.countCap (n + 1)

/-! ### Meter factor -/

/-- R42, third row: interpolation between two table points, the quotient truncated toward zero. -/
def interpolate (x y : TablePoint) (q : Nat) : Nat :=
  ((x.k : Int) + Int.tdiv (((y.k : Int) - x.k) * ((q : Int) - x.q)) ((y.q : Int) - x.q)).toNat

/-- R42: K at the rate q from the points that follow `x`. -/
def factorFrom (x : TablePoint) : List TablePoint → Nat → Nat
  | [], _ => x.k
  | y :: rest, q => if q ≤ x.q then x.k else if q < y.q then interpolate x y q else factorFrom y rest q

/-- R42: the meter factor at the rate q. -/
def meterFactor (table : List TablePoint) (q : Nat) : Nat :=
  match table with
  | [] => 0
  | x :: rest => factorFrom x rest q

/-- R43: the window volume of a net count. -/
def windowVolume (table : List TablePoint) (n : Int) : Int := n * meterFactor table n.natAbs

/-! ### Volume and money of a sale -/

/-- R44: debt and accumulated volume after a window volume. -/
def SaleRecord.addVolume (r : SaleRecord) (dv : Int) : SaleRecord :=
  if dv < 0 then { r with d := min Config.maxInt64 (r.d + dv.natAbs) }
  else if dv.natAbs ≤ r.d then { r with d := r.d - dv.natAbs }
  else { r with v := min Config.maxInt64 (r.v + (dv.natAbs - r.d)), d := 0 }

/-- R46: whole centilitres of a volume, before the cap. -/
def wholeCl (v : Nat) : Nat := v / Config.nlPerCl

/-- R60: money before the cap. -/
def rawMoney (cl price : Nat) : Nat := (cl * price + 500) / 1000

/-- R60: the money of a displayed volume and a unit price. -/
def moneyOf (cl price : Nat) : Nat := min Config.figureCap (rawMoney cl price)

/-- R46: the volume cap binds at this accumulated volume. -/
def volumeBinds (v : Nat) : Bool := decide (Config.figureCap < wholeCl v)

/-- R61: the money cap binds at this displayed volume and price. -/
def moneyBinds (cl price : Nat) : Bool := decide (Config.figureCap < rawMoney cl price)

/-- R46: the displayed volume set from V, with the marks of a binding cap. -/
def SaleRecord.showVolume (r : SaleRecord) : SaleRecord :=
  { r with displayed := min Config.figureCap (wholeCl r.v),
           unverified := r.unverified || volumeBinds r.v,
           capacity := r.capacity || volumeBinds r.v }

/-- R60, R61: money set from the displayed volume, with the marks of a binding cap. -/
def SaleRecord.showMoney (r : SaleRecord) : SaleRecord :=
  { r with money := moneyOf r.displayed r.unitPrice,
           unverified := r.unverified || moneyBinds r.displayed r.unitPrice,
           capacity := r.capacity || moneyBinds r.displayed r.unitPrice }

/-! ### Targets -/

/-- A quotient with any remainder rounded up (R64). -/
def ceilDiv (x y : Nat) : Nat := (x + y - 1) / y

/-- R64: the smallest displayed volume whose money reaches so many cents. -/
def moneyTarget (cents price : Nat) : Nat := ceilDiv ((2 * cents - 1) * 500) price

/-- R64: the preset target. -/
def presetTarget (preset : Option Preset) (price : Nat) : Option Nat :=
  match preset with
  | none => none
  | some (.volume cl) => some cl
  | some (.money cents) => some (moneyTarget cents price)

/-- R65: the smaller of the two capacity bounds. -/
def capacityTarget (price : Nat) : Nat := min Config.presetCap (moneyTarget Config.presetCap price)

/-- R65: the target and its source. -/
def targetOf (preset : Option Preset) (price : Nat) : Nat × TargetSource :=
  match presetTarget preset price with
  | none => (capacityTarget price, .capacity)
  | some t => if t ≤ capacityTarget price then (t, .preset) else (capacityTarget price, .capacity)

/-- R71: the overrun mark of a record at sale end. -/
def SaleRecord.overruns (r : SaleRecord) : Bool :=
  match r.preset with
  | none => false
  | some (.volume cl) => decide (cl < r.displayed)
  | some (.money cents) => decide (cents < r.money)

/-- R12, R21, R72: the record with the end reason of the stop cause. -/
def SaleRecord.stopped (r : SaleRecord) (why : EndReason) : SaleRecord := { r with endReason := some why }

/-- R24, step 1: the record closed: its end reason stands, its overrun mark is decided. -/
def SaleRecord.close (r : SaleRecord) : SaleRecord := { r with overrun := r.overruns }

/-- R10, R60, R64 to R66: the record a sale opens with. -/
def SaleRecord.opened (p : Side) (number : BitVec 16) (h : Slot) (grade : Grade) (price : Nat)
    (generation : BitVec 8) (e : Entry) (margin : Nat) : SaleRecord where
  point := p
  number := number
  hose := h
  grade := grade
  unitPrice := price
  generation := generation
  v := 0
  d := 0
  backflowRaised := false
  displayed := 0
  money := 0
  preset := e.preset
  target := (targetOf e.preset price).1
  targetSource := (targetOf e.preset price).2
  slowdown := (targetOf e.preset price).1 - margin
  link := e.link
  phaseErrors := 0
  endReason := none
  unverified := false
  overrun := false
  capacity := false
  unlinked := false
  recovered := false

/-- R10: the number after the last, wrapping from 65,535 to 1. -/
def nextNumber (n : BitVec 16) : BitVec 16 := if n + 1 = 0 then 1 else n + 1

/-- R10, step 2: the sale number of a new sale, which no stacked record has. -/
def saleNumber (last : BitVec 16) (stack : List SaleRecord) : BitVec 16 :=
  if (stack.any fun r => decide (r.number = nextNumber last)) then nextNumber (nextNumber last) else nextNumber last

/-! ### Totals -/

/-- R150: the sale-number test. -/
def Totals.settles (t : Totals) (r : SaleRecord) : Bool := decide (r.number ≠ t.last)

/-- R150: the totals after a sale that passes the test. -/
def Totals.add (t : Totals) (r : SaleRecord) : Totals :=
  { t with volume := (t.volume + r.displayed) % Config.totalsModulus,
           money := (t.money + r.money) % Config.totalsModulus,
           sales := t.sales + 1,
           unverified := if r.unverified then bump t.unverified else t.unverified,
           last := r.number }

end Sys2Proof.Machine
end

