-- ==== Sys2Proof/Machine/Wire.lean ====
section
/-! DEFINITION. What the part sends: the field codings of R192, the frame of R181 and R192 with its check code, the records
of R194 and the result payloads of the read commands in the order their chapters list them. Widths and placings chapter 11
does not give are marked in log entry 6. -/

namespace Sys2Proof.Machine

/-! ### Fields -/

/-- R192: an unsigned field of `n` bytes, least significant byte first. -/
def le : Nat → Nat → List Byte
  | 0, _ => []
  | n + 1, x => BitVec.ofNat 8 x :: le n (x / 256)

/-- R192: a signed field of `n` bytes, two's complement. -/
def leInt (n : Nat) (x : Int) : List Byte := le n (x.emod ((256 : Int) ^ n)).toNat

/-- R192: a field of one byte. -/
def byte (x : Nat) : Byte := BitVec.ofNat 8 x

/-- R192: flag or mark. -/
def flagByte (b : Bool) : Byte := if b then 1 else 0

/-- R192: an optional one-byte code. -/
def optByte (x : Option Byte) : Byte := x.getD 0xFF

def sideByte : Side → Byte
  | .a => 0
  | .b => 1

def slotByte (h : Slot) : Byte := byte h.val
def meterByte (m : Meter) : Byte := byte m.val
def gradeByte (g : Grade) : Byte := byte g.val

def domainByte : Domain → Byte
  | .pointA => 0
  | .pointB => 1
  | .card => 2
  | .supply => 3

/-- R192: an optional scheduled time. -/
def timeBytes (t : Option Nat) : List Byte := le 4 (t.getD 0xFFFFFFFF)

/-- R192: a unit price, FFFF hex when unset (or kept). -/
def priceBytes (p : Option Nat) : List Byte := le 2 (p.getD 0xFFFF)

/-! ### Check code and frame -/

/-- R181: one bit of a CRC-16 with polynomial 1021 hex. -/
def crcShift (c : BitVec 16) : BitVec 16 := if c.msb then (c <<< 1) ^^^ 0x1021 else c <<< 1

/-- R181: one byte, most significant bit first, no reflection. -/
def crcByte (c : BitVec 16) (b : Byte) : BitVec 16 :=
  crcShift (crcShift (crcShift (crcShift (crcShift (crcShift (crcShift (crcShift (c ^^^ (b.setWidth 16 <<< 8)))))))))

/-- R113, R181: the CRC-16 of polynomial 1021 hex and starting value FFFF hex. -/
def crc16 (bytes : List Byte) : BitVec 16 := bytes.foldl crcByte 0xFFFF

/-- The check code as sent, low byte first. -/
def crcBytes (bytes : List Byte) : List Byte := le 2 (crc16 bytes).toNat

/-- R181: LEN, KIND, TAG and the payload, over which the check code is taken. -/
def Frame.body (f : Frame) : List Byte := byte f.payload.length :: f.kind :: f.tag :: f.payload

/-- R181, R192: the characters of a frame on the host link. -/
def Frame.characters (f : Frame) : List Byte := 0xB7 :: (f.body ++ crcBytes f.body)

/-! ### Codes -/

/-- R194. -/
def PointState.code : PointState → Byte
  | .closed => 0
  | .idle => 1
  | .calling => 2
  | .authorized => 3
  | .starting => 4
  | .fuelling => 5
  | .slowdown => 6
  | .suspended => 7
  | .stopping => 8
  | .halted => 9

/-- R194. -/
def VoidCause.code : VoidCause → Byte
  | .cancel => 0
  | .timeout => 1
  | .price => 2
  | .link => 3
  | .card => 4
  | .close => 5
  | .halt => 6

/-- R194. -/
def EndReason.code : EndReason → Byte
  | .nozzle => 0
  | .hostStop => 1
  | .preset => 2
  | .capacity => 3
  | .fault => 4
  | .suspendLimit => 5
  | .power => 6

/-- R193. -/
def LinkKind.code : LinkKind → Byte
  | .none => 0
  | .card => 1

/-- R194. -/
def TargetSource.code : TargetSource → Byte
  | .preset => 0
  | .capacity => 1

/-- R194. -/
def Severity.code : Severity → Byte
  | .note => 0
  | .fault => 1
  | .halt => 2

/-- R194: the fault codes. -/
def FaultCode.code : FaultCode → Byte
  | .phaseError => 0x01
  | .nozzleConflict => 0x02
  | .runOnLimit => 0x03
  | .displayMismatch => 0x04
  | .rateOverrange => 0x05
  | .meterTaint => 0x06
  | .backflow => 0x07
  | .capacitySaturated => 0x08
  | .snapshotLost => 0x09
  | .totalsLost => 0x0A
  | .unattributedFlow => 0x0B
  | .displayFault => 0x0C
  | .metrologyLost => 0x0D
  | .cardBreak => 0x21
  | .lineError => 0x22
  | .frameCheck => 0x23
  | .ringOverflow => 0x24
  | .checkRun => 0x25
  | .readyTimeout => 0x26
  | .tamper => 0x27
  | .brownout => 0x41
  | .clockLost => 0x42
  | .sequenceTimeout => 0x43
  | .settingsLost => 0x44
  | .pricesLost => 0x45
  | .saveIncomplete => 0x46
  | .sequenceAbort => 0x47
  | .supplyUnsteady => 0x48

/-- R194: origin kind and origin value; the value of no origin is sent as 00 (log entry 6). -/
def originBytes : Option Origin → List Byte
  | none => [0, 0]
  | some (.meter m) => [1, meterByte m]
  | some (.slot h) => [2, slotByte h]
  | some (.head p) => [3, sideByte p]
  | some (.step n) => [4, byte n]

/-- R194. -/
def PowerState.code : PowerState → Byte
  | .dark => 0
  | .restore => 1
  | .standby => 2
  | .waking => 3
  | .run => 4
  | .closing => 5
  | .powerfail => 6

/-- R194. -/
def Supply.code : Supply → Byte
  | .aboveRestore => 0
  | .between => 1
  | .belowWarn => 2

def cellByte : CellReading → Byte
  | .good => 0
  | .low => 1

/-- R194. -/
def RestoreCause.code : RestoreCause → Byte
  | .dark => 0
  | .brownout => 1
  | .reset => 2

/-- R193. -/
def RestorePolicy.code : RestorePolicy → Byte
  | .hold => 0
  | .resume => 1

/-- R194. -/
def PendingFound.code : PendingFound → Byte
  | .none => 0
  | .discarded => 1
  | .notKnown => 2

/-- R194: the wait in progress, and the wait of a step (R193). -/
def StepWait.code : StepWait → Byte
  | .none => 0
  | .delay => 1
  | .headWarm _ => 2
  | .readerReady => 3
  | .supplySteady => 4

/-- R193. -/
def WakeAction.code : WakeAction → Byte
  | .heater .a => 0
  | .heater .b => 1
  | .head .a => 2
  | .head .b => 3
  | .reader => 4
  | .motorSupply => 5
  | .openPoint .a => 6
  | .openPoint .b => 7

/-- R193. -/
def StepOutcome.code : StepOutcome → Byte
  | .goOn => 0
  | .degrade => 1
  | .abort => 2

/-- R194. -/
def CardState.code : CardState → Byte
  | .off => 0
  | .starting => 1
  | .opened => 2
  | .contained => 3

/-- R193. -/
def CardMode.code : CardMode → Byte
  | .framed => 0
  | .gap => 1

/-- R193. -/
def Baud.code : Baud → Byte
  | .b9600 => 0
  | .b19200 => 1
  | .b38400 => 2
  | .b57600 => 3

/-- R193. -/
def ContainReply.code : ContainReply → Byte
  | .empty => 0
  | .refuse => 1

/-- R193. -/
def FrameStatus.code : FrameStatus → Byte
  | .ok => 0
  | .check => 1
  | .abort => 2
  | .truncated => 3

/-- R194. -/
def PriceOutcome.code : PriceOutcome → Byte
  | .accepted => 0
  | .applied => 1
  | .superseded => 2
  | .expired => 3
  | .cancelled => 4
  | .restoreDiscard => 5

/-- R193. -/
def PendingMode.code : PendingMode → Byte
  | .atIdle => 1
  | .atWake => 2

/-- R194. -/
def ContentKind.code : ContentKind → Byte
  | .dark => 0
  | .closed => 1
  | .halted => 2
  | .lastSale => 3
  | .testOn => 4
  | .testOff => 5
  | .running => 6

/-- R194. -/
def TestPhase.code : TestPhase → Byte
  | .none => 0
  | .allOn _ => 1
  | .allOff _ => 2

/-- R194. -/
def RefreshResult.code : RefreshResult → Byte
  | .none => 0
  | .matched => 1
  | .mismatched => 2

def badCauseByte : BadCause → Byte
  | .gap => 0
  | .length => 1
  | .check => 2
  | .lineError => 3

/-- R193. -/
def LineSpeed.code : LineSpeed → Byte
  | .baud57600 => 0
  | .baud115200 => 1

/-- R195: one digit as READ HEAD returns it. -/
def Digit.code (d : Digit) : Byte :=
  (match d.glyph with
    | .digit n => byte n
    | .dash => 0x0A
    | .blank => 0x0B
    | .allOn => 0x0C) ||| (if d.point then 0x80 else 0)

/-! ### Records -/

/-- R193, R194: preset kind and value. -/
def presetBytes : Option Preset → List Byte
  | none => 0 :: le 4 0
  | some (.volume cl) => 1 :: le 4 cl
  | some (.money cents) => 2 :: le 4 cents

/-- R194: marks of a sale record. -/
def SaleRecord.marks (r : SaleRecord) : Byte :=
  byte ((if r.unverified then 1 else 0) + (if r.overrun then 2 else 0) + (if r.capacity then 4 else 0) +
    (if r.unlinked then 8 else 0) + (if r.recovered then 16 else 0))

/-- R194: the sale record. -/
def SaleRecord.bytes (r : SaleRecord) : List Byte :=
  sideByte r.point :: le 2 r.number.toNat ++ slotByte r.hose :: gradeByte r.grade :: le 2 r.unitPrice ++
  byte r.generation.toNat :: le 8 r.v ++ le 8 r.d ++ le 4 r.displayed ++ le 4 r.money ++ presetBytes r.preset ++
  le 4 r.target ++ r.targetSource.code :: le 4 r.slowdown ++ r.link.code :: le 2 r.phaseErrors ++
  [optByte (r.endReason.map EndReason.code), r.marks]

/-- R194: the nozzle list in four places. -/
def nozzleBytes (l : List Slot) : List Byte := ((l.map slotByte) ++ [0xFF, 0xFF, 0xFF, 0xFF]).take 4

/-- R194: the part of the point status record that is 0 when no entry is present. -/
def entryBytes : Option Entry → List Byte
  | none => 0 :: le 8 0
  | some e => 1 :: byte e.mask.toNat :: presetBytes e.preset ++ [e.link.code, byte e.generation.toNat]

/-- R194: start-blocked reports. -/
def Reports.code (r : Reports) : Byte :=
  byte ((if r.gradeNotAllowed then 1 else 0) + (if r.hoseBlocked then 2 else 0) + (if r.cardNotOpen then 4 else 0))

/-- R32, R194: the point status record. The end reason that the notice reports in STOPPING (R21) has no byte in it: the notice
carries it beside the record (`State.pointUnplaced`, log entry 28). -/
def State.pointRecord (s : State) (p : Side) : List Byte :=
  let x := s.point p
  x.state.code :: optByte (x.resume.map fun r => r.toPoint.code) :: byte x.nozzles.length :: nozzleBytes x.nozzles ++
  optByte (x.lifted.map slotByte) :: entryBytes x.entry ++
  optByte (x.lastVoid.map VoidCause.code) :: x.reports.code :: flagByte x.closing ::
  le 2 ((s.activeSale p).elim 0 BitVec.toNat) ++ [flagByte (s.head p).coldMark]

/-- R194: one entry of a SALE notice. -/
def SaleRecord.stackEntry (r : SaleRecord) : List Byte :=
  le 2 r.number.toNat ++ slotByte r.hose :: gradeByte r.grade :: le 4 r.displayed ++ le 4 r.money ++
  [optByte (r.endReason.map EndReason.code), r.marks]

/-- R32, R194: the content of a SALE notice. -/
def State.saleContent (s : State) (p : Side) : List Byte :=
  let x := s.point p
  byte x.stack.length :: (x.stack.map SaleRecord.stackEntry).flatten ++ [optByte (x.lastEnd.map EndReason.code)]

/-- R51: the content of a METER notice. -/
def State.meterContent (s : State) (m : Meter) : List Byte :=
  let x := s.meter m
  meterByte m :: optByte ((s.owner m).map sideByte) :: optByte (x.holder.map sideByte) ::
  le 2 ((x.holder.bind s.activeSale).elim 0 BitVec.toNat) ++
  leInt 8 x.u ++ flagByte x.limitMark :: leInt 2 x.lastCount ++ flagByte x.lastOverrange :: le 2 x.idleErrors

/-- R194: the fault capture record. -/
def Capture.bytes (c : Capture) : List Byte :=
  match c.fault with
  | none => [0, 0, 0, 0, 0, 0, 0, byte c.token.toNat, 0]
  | some f => 1 :: f.code.code :: f.severity.code :: originBytes f.origin ++
      le 2 (f.sale.elim 0 BitVec.toNat) ++ [byte c.token.toNat, flagByte c.more]

/-- R130: the card status, the content of the CARD notice and of READ CARD. Reader power on is sent as 01 (log entry 35). The
off-delay's time remaining is reported with a pending restart, and is 0 without one (DESIGN CHOICE, log entry 39). -/
def State.cardContent (s : State) : List Byte :=
  let c := s.card
  c.state.code :: flagByte c.restartPending :: le 2 (if c.restartPending then s.offDelayLeft else 0) ++
  [c.settings.mode.code, c.settings.baud.code, byte c.settings.gap, byte c.settings.ready, c.settings.reply.code,
    byte c.inbound.length] ++ le 2 c.inboundCost ++
  optByte (c.inbound.getLast?.map fun f => f.status.code) :: byte c.outbound.length :: le 2 c.outboundCost ++
  [byte c.run, flagByte c.state.powered,
    Config.wireCode (if c.tamperOpen then .tamperOpen else .tamperClosed)]

/-- R192: a grade mask, or the mask of affected grades. -/
def maskByte (m : BitVec 4) : Byte := byte m.toNat

def priceSetBytes (p : PriceSet) : List Byte := (p.toList.map priceBytes).flatten

/-- R81: whether a mask holds a grade. -/
def maskHas (m : BitVec 4) (g : Grade) : Bool := m.getLsbD g.val

/-- R81: points whose sale-active state stops a set of affected grades. -/
def State.stops (s : State) (affected : BitVec 4) (p : Side) : Bool :=
  (s.point p).state.saleActive && Grade.all.any fun g => maskHas affected g && s.carries p g

/-- R90, R192: the price status, the content of READ PRICES and, with the superseded mark behind it, of the PRICE notice. The
fields of a pending set that is not there are sent as their absent values. -/
def State.priceContent (s : State) : List Byte :=
  let t := s.prices
  priceSetBytes t.active ++ byte t.generation.toNat ::
  (match t.pending with
    | none => 0 :: priceSetBytes (Vector.replicate 4 none) ++ [0xFF, 0, 0, 0, 0]
    | some x => 1 :: priceSetBytes x.entries ++ x.mode.code :: maskByte x.affected ::
        le 2 (t.deadlineDue.elim 0 s.remainingSeconds) ++
        [if x.mode = .atIdle then
          byte ((if s.stops x.affected .a then 1 else 0) + (if s.stops x.affected .b then 2 else 0)) else 0]) ++
  [optByte (t.lastOutcome.map fun x => x.outcome.code),
    byte (t.lastOutcome.elim 0 fun x => x.generation.toNat)]

/-- R194: the last restore summary. Whether the clock is valid (R165) has no byte in it: the message carries it beside the record
(`State.powerUnplaced`, log entry 28). -/
def Summary.bytes (x : Summary) : List Byte :=
  x.cause.code :: flagByte (!x.clockKept) :: x.pendingSet.code :: optByte (x.next.map PowerState.code) ::
  byte x.recovered.length :: (x.recovered.map fun r => sideByte r.point :: le 2 r.number.toNat).flatten ++
  byte x.findings.length :: (x.findings.map fun f => f.code.code :: domainByte f.domain :: originBytes f.origin).flatten

/-- R179, R194: the power status record. The clock's valid flag has no byte in it: the message carries it beside the record
(`State.powerUnplaced`, log entry 28). Motor drive on is sent as 01 (log entry 35). -/
def State.powerContent (s : State) : List Byte :=
  let x := s.power
  [x.state.code, byte x.stepIndex, optByte (x.wait.map fun w => w.wait.code)] ++
  le 2 (x.wait.elim 0 fun w => s.remainingSeconds w.due) ++
  x.supply.code :: cellByte x.cell :: le 4 x.clock ++ timeBytes x.wakeTime ++ timeBytes x.sleepTime ++
  [flagByte x.wakeOnLift, x.policy.code, x.loaded.code, flagByte x.motorDrive, byte x.aborts] ++ x.summary.bytes

/-- R193, R194: a wake step in the coding of SET WAKE SEQUENCE. A head byte that no HEAD_WARM uses is sent as FF (log entry 6). A time
or an outcome that the wait does not use (R173) is sent as the table holds it: R192 could be read to send 0 or FF there (DESIGN CHOICE,
log entry 40). -/
def WakeStep.bytes (w : WakeStep) : List Byte :=
  w.action.code :: w.wait.code ::
  (match w.wait with
    | .headWarm p => sideByte p
    | _ => 0xFF) :: le 2 w.time ++ [w.outcome.code]

/-- R179, R194: READ POWER appends the wake sequence table. -/
def State.powerReply (s : State) : List Byte :=
  s.powerContent ++ byte s.power.table.length :: (s.power.table.map WakeStep.bytes).flatten

/-- R191: the content of the LINK notice and of READ LINK. An absent last overrun tag is sent as FF (log entry 34). -/
def State.linkContent (s : State) : List Byte :=
  let l := s.link
  flagByte (!l.up) :: byte l.timeout :: le 2 l.badCount ++ optByte (l.lastBad.map badCauseByte) :: le 2 l.overruns ++
  [optByte l.lastOverrun, byte l.queue.length, byte l.free]

/-- R191, R193: the result of IDENTIFY. -/
def State.identity (s : State) : List Byte := le 2 0x0A21 ++ [1, 6, 8, 2, s.link.speed.code]

/-- R108: milliseconds left of a test phase. -/
def State.testLeft (s : State) : TestPhase → Nat
  | .none => 0
  | .allOn since => s.remaining (since + Config.allOnTime)
  | .allOff since => s.remaining (since + Config.allOffTime)

/-- R108: the last-sale figures. -/
def LastSale.bytes : LastSale → List Byte
  | .none => Config.wireCode .lastSaleNone :: le 9 0
  | .figures cl cents u => Config.wireCode .lastSaleFigures :: le 4 cl ++ le 4 cents ++ [flagByte u]
  | .damaged => Config.wireCode .lastSaleDamaged :: le 9 0

/-- R108: the result of READ HEAD. An output that is on and a control that is enabled are sent as 01 (log entry 35). -/
def State.headReply (s : State) (p : Side) : List Byte :=
  let h := s.head p
  [flagByte h.power, flagByte h.heaterEnabled, flagByte h.heater,
    Config.wireCode (if h.warm then .readsWarm else .readsCold), flagByte h.coldMark, h.content.code, h.test.code] ++
  le 2 (s.testLeft h.test) ++ byte h.mismatches :: h.result.code :: h.lastSale.bytes ++
  (match h.image with
    | none => []
    | some digits => digits.map Digit.code)

/-- R156: whether a record waits in the queue or is in flight. -/
def State.writePending (s : State) (h : Slot) : Bool :=
  decide (RecordId.totals h ∈ s.store.queue) ||
  (s.store.inFlight.any fun w => match w.content with
    | .totals k _ => decide (k = h)
    | _ => false)

/-- R156: the result of READ TOTALS. -/
def State.totalsReply (s : State) (h : Slot) : List Byte :=
  let t := s.totals h
  le 8 t.volume ++ le 8 t.money ++ le 4 t.sales.toNat ++ le 2 t.unverified ++ le 2 t.last.toNat ++
  le 2 t.setCount.toNat ++ [flagByte t.blocked, flagByte (s.writePending h)]

/-- R156, R194: the result of RECALL. -/
def State.recallReply (s : State) (p : Side) : List Byte :=
  let d := flagByte (s.store.dirty.get p)
  match s.store.snapshots.get p with
  | .none => [0, d]
  | .damaged => [1, d]
  | .ended r => 2 :: d :: r.bytes
  | .power r => 3 :: d :: r.bytes

/-- R59: READ METROLOGY, SUMMARY. -/
def State.metrologySummary (s : State) : List Byte :=
  le 4 s.metrology.data.audit.toNat ++ [flagByte s.pins.metrologyClosed, flagByte s.metrology.damaged]

/-- R59: READ METROLOGY, a hose slot. -/
def State.metrologySlot (s : State) (h : Slot) : List Byte :=
  match s.hose h with
  | none => [0, 0xFF, 0xFF, 0]
  | some x => [1, gradeByte x.grade, meterByte x.meter, byte x.tolerance]

/-- R193: a point of a linearisation table. -/
def TablePoint.bytes (t : TablePoint) : List Byte := le 2 t.q ++ le 4 t.k

/-- R59: READ METROLOGY, a meter. -/
def State.metrologyMeter (s : State) (m : Meter) : List Byte :=
  let x := s.meterSettings m
  byte x.table.length :: (x.table.map TablePoint.bytes).flatten ++
  [byte x.phaseLimit, byte x.flowLimit, optByte ((s.owner m).map sideByte)]

/-! ### Notices -/

/-- R192: KIND of a notice. -/
def Subject.kind : Subject → Byte
  | .point _ => 0xC1
  | .sale _ => 0xC2
  | .meter _ => 0xC3
  | .fault _ => 0xC4
  | .card => 0xC5
  | .price => 0xC6
  | .power => 0xC7
  | .link => 0xC8

/-- R194: TAG of a notice. -/
def Subject.tag : Subject → Byte
  | .point p => sideByte p
  | .sale p => sideByte p
  | .meter m => meterByte m
  | .fault d => domainByte d
  | .card | .price | .power | .link => 0

/-- R187: place of a class in the outbound order, lowest first. -/
def Subject.rank : Subject → Nat
  | .fault _ => 0
  | .power => 1
  | .point _ => 2
  | .sale _ => 3
  | .card => 4
  | .meter _ => 5
  | .price => 6
  | .link => 7

/-- R194: the content record of a notice. -/
def State.noticeContent (s : State) : Subject → List Byte
  | .point p => s.pointRecord p
  | .sale p => s.saleContent p
  | .meter m => s.meterContent m
  | .fault d => (s.capture d).bytes
  | .card => s.cardContent
  | .price => s.priceContent ++ [flagByte s.prices.superseded]
  | .power => s.powerContent
  | .link => s.linkContent

/-- R21: in STOPPING the POINT notice reports the end reason (log entry 28). -/
def State.pointUnplaced (s : State) (p : Side) : List Unplaced :=
  if (s.point p).state = .stopping
  then (((s.point p).sale.bind SaleRecord.endReason).map Unplaced.endReason).toList else []

/-- R179, R165: READ POWER and the POWER notice report the clock's valid flag, and with the last restore summary whether the clock
was valid (log entry 28). -/
def State.powerUnplaced (s : State) : List Unplaced :=
  [.clockValid s.power.clockValid, .summaryClockValid s.power.summary.clockValid]

/-- What a notice reports beside the bytes of its content record (log entry 28). -/
def State.noticeUnplaced (s : State) : Subject → List Unplaced
  | .point p => s.pointUnplaced p
  | .power => s.powerUnplaced
  | .sale _ | .meter _ | .fault _ | .card | .price | .link => []

/-- R194: the header of a notice. -/
def State.noticeHeader (s : State) (superseded : Bool) : List Byte :=
  byte ((if superseded then 1 else 0) + (if s.power.clockValid then 2 else 0)) :: s.power.state.code ::
  le 4 s.power.clock

/-- R186, R194: a notice as it stands when its sending begins. -/
def State.noticeFrame (s : State) (n : QueuedNotice) : Message :=
  ⟨n.subject.kind, n.subject.tag, s.noticeHeader n.superseded ++ s.noticeContent n.subject, s.noticeUnplaced n.subject⟩

/-! ### Replies -/

/-- R185: the refusal reasons. -/
inductive Reason where
  | unknown
  | length
  | range
  | state
  | busy
  | locked
  | stackFull
  | contained
  | standby
  | notFound
  | stale
  | faultHeld
  deriving DecidableEq, Repr

/-- R193. -/
def Reason.code : Reason → Byte
  | .unknown => 1
  | .length => 2
  | .range => 3
  | .state => 4
  | .busy => 5
  | .locked => 6
  | .stackFull => 7
  | .contained => 8
  | .standby => 9
  | .notFound => 10
  | .stale => 11
  | .faultHeld => 12

/-- What an owner answers to a command (R184, R185). -/
inductive Response where
  /-- DONE with its adjusted mark and its result -/
  | done (adjusted : Bool) (result : List Byte)
  /-- DONE with its result and what it reports without a byte of its own (log entry 28) -/
  | report (result : List Byte) (unplaced : List Unplaced)
  /-- REFUSED with its reason -/
  | refused (why : Reason)
  /-- REFUSED STALE with the capture's token (R138) -/
  | stale (token : BitVec 4)
  /-- the DONE of CARD TAKE that carries a frame (R193) -/
  | taken (frame : CardFrame) (left : Nat)
  /-- DONE when a write of the record that began after the change completes (R147) -/
  | onWrite (r : RecordId) (adjusted : Bool) (result : List Byte)
  deriving DecidableEq, Repr

/-- R193: the payload of a DONE reply. -/
def donePayload (adjusted : Bool) (result : List Byte) : List Byte := flagByte adjusted :: result

/-- R192, R193: KIND and payload of a finished reply to the command of that KIND. -/
def replyFrame (kind tag : Byte) : Response → Message
  | .done adjusted result => ⟨kind + 0x80, tag, donePayload adjusted result, []⟩
  | .report result unplaced => ⟨kind + 0x80, tag, donePayload false result, unplaced⟩
  | .refused .unknown => ⟨Config.unknownReplyKind kind, tag, [2, Reason.unknown.code], []⟩
  | .refused why => ⟨kind + 0x80, tag, [2, why.code], []⟩
  | .stale token => ⟨kind + 0x80, tag, [2, Reason.stale.code, byte token.toNat], []⟩
  | .taken f left => ⟨0xE0 + 8 * f.status.code + byte left, tag, f.content, []⟩
  | .onWrite _ adjusted result => ⟨kind + 0x80, tag, donePayload adjusted result, []⟩

end Sys2Proof.Machine
end

