-- ==== Sys2Proof/WellFormed.lean ====
section
/-! DEFINITION. Which commands and events the lines of the part can bring: lists that fit a frame (R181, R193), a read-back
of as many states as the chain has segments (R195), a cause BAD_FRAME can have (R181). -/

namespace Sys2Proof

/-- R181: a payload is at most 250 bytes, so a counted list holds at most 41 entries of six bytes behind two bytes
(R193, SET METER TABLE) or one (SET WAKE SEQUENCE). -/
def Command.wf : Command → Bool
  | .setMeterTable _ points => decide (2 + 6 * points.length ≤ Config.contentLimit)
  | .setWakeSequence steps => decide (1 + 6 * steps.length ≤ Config.contentLimit)
  | .cardSend content => decide (content.length ≤ Config.contentLimit)
  | _ => true

/-- The rows that the lines of the part can bring. -/
def Instr.wf : Instr → Bool
  | .setMeterTable _ m points _ => (Command.setMeterTable m points).wf
  | .setWakeSequence _ steps => (Command.setWakeSequence steps).wf
  | .cardSend _ content => (Command.cardSend content).wf
  | .goodFrame _ _ payload _ => decide (payload.length ≤ Config.contentLimit)
  | .badFrame cause => decide (cause ≠ .gap)
  | .headRefresh _ echo => decide (echo.length = 224)
  | _ => true

end Sys2Proof
end

