-- ==== Sys2Proof/Machine/Codec.lean ====
section
/-! DEFINITION. Command frames (R193): the KIND and the payload of each command, and the interpreter's reading of a KIND and
a payload (R184, R192). A payload whose length does not fit its kind gives no command. -/

namespace Sys2Proof.Machine

/-- R193: the code of a command. -/
def Command.kind : Command → Byte
  | .identify => 0x01
  | .readLink => 0x02
  | .setLinkTimeout _ => 0x03
  | .authorize _ => 0x04
  | .cancel _ => 0x05
  | .stop _ => 0x06
  | .suspend _ => 0x07
  | .resume _ _ => 0x08
  | .openPoint _ => 0x09
  | .closePoint _ => 0x0A
  | .restartPoint _ => 0x0B
  | .clearSale _ _ => 0x0C
  | .readSale _ _ => 0x0D
  | .setPointOptions _ => 0x0E
  | .setHose _ => 0x0F
  | .setMeterTable _ _ => 0x10
  | .setMeterLimits _ _ _ => 0x11
  | .readMetrology _ _ => 0x12
  | .priceChange _ => 0x13
  | .cancelPriceChange => 0x14
  | .readPrices => 0x15
  | .readHead _ => 0x16
  | .cardMode _ => 0x17
  | .cardRestart => 0x18
  | .cardStop => 0x19
  | .cardTake => 0x1A
  | .cardSend _ => 0x1B
  | .readCard => 0x1C
  | .readFault _ => 0x1D
  | .clearFault _ _ => 0x1E
  | .setTotals _ _ _ => 0x1F
  | .readTotals _ => 0x20
  | .recall _ => 0x21
  | .wake => 0x22
  | .sleep => 0x23
  | .setClock _ => 0x24
  | .setSchedule _ _ _ => 0x25
  | .setWakeSequence _ => 0x26
  | .setRestorePolicy _ => 0x27
  | .readPower => 0x28

/-- R192: a 16-bit field, low byte first. -/
def bytes16 (x : BitVec 16) : List Byte := [x.extractLsb' 0 8, x.extractLsb' 8 8]

/-- R192: a 32-bit field, low byte first. -/
def bytes32 (x : BitVec 32) : List Byte := bytes16 (x.extractLsb' 0 16) ++ bytes16 (x.extractLsb' 16 16)

/-- R192: a 64-bit field, low byte first. -/
def bytes64 (x : BitVec 64) : List Byte := bytes32 (x.extractLsb' 0 32) ++ bytes32 (x.extractLsb' 32 32)

/-- R193: the payload of a command, its fields in the order in which the owning chapter names them. -/
def Command.payload : Command → List Byte
  | .identify | .readLink | .cancelPriceChange | .readPrices | .cardRestart | .cardStop | .cardTake | .readCard
  | .wake | .sleep | .readPower => []
  | .setLinkTimeout x | .cancel x | .stop x | .suspend x | .openPoint x | .closePoint x | .restartPoint x
  | .readHead x | .readFault x | .readTotals x | .recall x | .setRestorePolicy x => [x]
  | .authorize x => x.point :: x.mask :: x.presetKind :: bytes32 x.presetValue ++ [x.link]
  | .resume p u => [p, u]
  | .clearSale p n | .readSale p n => p :: bytes16 n
  | .setPointOptions x => x.point :: bytes16 x.margin ++ bytes16 x.runUp ++ bytes16 x.stagger ++ bytes16 x.settle ++
      bytes16 x.authTimeout ++ bytes16 x.suspendLimit
  | .setHose x => [x.slot, x.present, x.grade, x.meter, x.tolerance]
  | .setMeterTable m pts => m :: byte pts.length :: pts.flatMap fun x => bytes16 x.q ++ bytes32 x.k
  | .setMeterLimits m p f => [m, p, f]
  | .readMetrology k v => [k, v]
  | .priceChange x => bytes16 x.grade0 ++ bytes16 x.grade1 ++ bytes16 x.grade2 ++ bytes16 x.grade3 ++
      x.mode :: bytes16 x.deadline
  | .cardMode x => [x.mode, x.baud, x.gap, x.ready, x.reply]
  | .cardSend content => content
  | .clearFault d t => [d, t]
  | .setTotals h v m => h :: bytes64 v ++ bytes64 m
  | .setClock v => bytes32 v
  | .setSchedule w sl f => bytes32 w ++ bytes32 sl ++ [f]
  | .setWakeSequence steps => byte steps.length :: steps.flatMap fun x =>
      x.action :: x.wait :: x.head :: bytes16 x.time ++ [x.outcome]

/-- Two bytes as a 16-bit field, low byte first. -/
def word16 (a b : Byte) : BitVec 16 := b ++ a

/-- Four bytes as a 32-bit field, low byte first. -/
def word32 (a b c d : Byte) : BitVec 32 := word16 c d ++ word16 a b

/-- Eight bytes as a 64-bit field, low byte first. -/
def word64 (a b c d e f g h : Byte) : BitVec 64 := word32 e f g h ++ word32 a b c d

/-- R193: table points behind their count; all bytes must be used. -/
def parsePoints : Nat → List Byte → Option (List RawTablePoint)
  | 0, [] => some []
  | n + 1, a :: b :: c :: d :: e :: f :: rest =>
    (parsePoints n rest).map fun t => ⟨word16 a b, word32 c d e f⟩ :: t
  | _, _ => none

/-- R193: wake steps behind their count; all bytes must be used. -/
def parseSteps : Nat → List Byte → Option (List RawStep)
  | 0, [] => some []
  | n + 1, a :: w :: h :: t0 :: t1 :: o :: rest => (parseSteps n rest).map fun t => ⟨a, w, h, word16 t0 t1, o⟩ :: t
  | _, _ => none

/-- R193: a payload of no bytes. -/
def parse0 (c : Command) : List Byte → Option Command
  | [] => some c
  | _ => none

/-- R193: a payload of one byte. -/
def parse1 (c : Byte → Command) : List Byte → Option Command
  | [x] => some (c x)
  | _ => none

/-- R193: a payload of two bytes. -/
def parse2 (c : Byte → Byte → Command) : List Byte → Option Command
  | [x, y] => some (c x y)
  | _ => none

/-- R193: a point and a sale number. -/
def parseSale (c : Byte → BitVec 16 → Command) : List Byte → Option Command
  | [p, a, b] => some (c p (word16 a b))
  | _ => none

/-- R192, R193: the command of a code 01 to 28 hex whose payload has the length that fits it; `none` is refused LENGTH. -/
def parsePayload (code : Nat) (l : List Byte) : Option Command :=
  match code with
  | 0x01 => parse0 .identify l
  | 0x02 => parse0 .readLink l
  | 0x03 => parse1 .setLinkTimeout l
  | 0x04 => match l with
    | [p, m, k, a, b, c, d, x] => some (.authorize ⟨p, m, k, word32 a b c d, x⟩)
    | _ => none
  | 0x05 => parse1 .cancel l
  | 0x06 => parse1 .stop l
  | 0x07 => parse1 .suspend l
  | 0x08 => parse2 .resume l
  | 0x09 => parse1 .openPoint l
  | 0x0A => parse1 .closePoint l
  | 0x0B => parse1 .restartPoint l
  | 0x0C => parseSale .clearSale l
  | 0x0D => parseSale .readSale l
  | 0x0E => match l with
    | [p, a0, a1, b0, b1, c0, c1, d0, d1, e0, e1, f0, f1] =>
      some (.setPointOptions ⟨p, word16 a0 a1, word16 b0 b1, word16 c0 c1, word16 d0 d1, word16 e0 e1, word16 f0 f1⟩)
    | _ => none
  | 0x0F => match l with
    | [h, f, g, m, t] => some (.setHose ⟨h, f, g, m, t⟩)
    | _ => none
  | 0x10 => match l with
    | m :: n :: rest => (parsePoints n.toNat rest).map (.setMeterTable m)
    | _ => none
  | 0x11 => match l with
    | [m, p, f] => some (.setMeterLimits m p f)
    | _ => none
  | 0x12 => parse2 .readMetrology l
  | 0x13 => match l with
    | [a0, a1, b0, b1, c0, c1, d0, d1, m, e0, e1] =>
      some (.priceChange ⟨word16 a0 a1, word16 b0 b1, word16 c0 c1, word16 d0 d1, m, word16 e0 e1⟩)
    | _ => none
  | 0x14 => parse0 .cancelPriceChange l
  | 0x15 => parse0 .readPrices l
  | 0x16 => parse1 .readHead l
  | 0x17 => match l with
    | [m, b, g, r, c] => some (.cardMode ⟨m, b, g, r, c⟩)
    | _ => none
  | 0x18 => parse0 .cardRestart l
  | 0x19 => parse0 .cardStop l
  | 0x1A => parse0 .cardTake l
  | 0x1B => some (.cardSend l)
  | 0x1C => parse0 .readCard l
  | 0x1D => parse1 .readFault l
  | 0x1E => parse2 .clearFault l
  | 0x1F => match l with
    | [h, a, b, c, d, e, f, g, i, a', b', c', d', e', f', g', i'] =>
      some (.setTotals h (word64 a b c d e f g i) (word64 a' b' c' d' e' f' g' i'))
    | _ => none
  | 0x20 => parse1 .readTotals l
  | 0x21 => parse1 .recall l
  | 0x22 => parse0 .wake l
  | 0x23 => parse0 .sleep l
  | 0x24 => match l with
    | [a, b, c, d] => some (.setClock (word32 a b c d))
    | _ => none
  | 0x25 => match l with
    | [a, b, c, d, e, f, g, h, i] => some (.setSchedule (word32 a b c d) (word32 e f g h) i)
    | _ => none
  | 0x26 => match l with
    | n :: rest => (parseSteps n.toNat rest).map .setWakeSequence
    | _ => none
  | 0x27 => parse1 .setRestorePolicy l
  | 0x28 => parse0 .readPower l
  | _ => none

/-- R193: the KINDs that name a command. -/
def namesCommand (kind : Byte) : Bool := decide (1 ≤ kind.toNat ∧ kind.toNat ≤ 0x28)

/-- R184, R193: what the interpreter makes of a frame. -/
inductive Judged where
  | unknown
  | length
  | command (c : Command)
  deriving DecidableEq, Repr

/-- R184, steps 1 and 2. -/
def judge (kind : Byte) (payload : List Byte) : Judged :=
  if namesCommand kind then
    match parsePayload kind.toNat payload with
    | some c => .command c
    | none => .length
  else .unknown

end Sys2Proof.Machine
end

