-- ==== Sys2Proof/Machine/Records.lean ====
section
/-! DEFINITION. The retained records as the store writes and judges them (R144, R145): the bytes of each content, its check code,
and the three things the store finds a record to be. The layouts are the model's (log entry 17); the sizes are those of R144. -/

namespace Sys2Proof.Machine

/-! ### Contents as bytes -/

/-- R144: a content of a record whose size, its two-byte check code included, is `size`. -/
def recordOf (size : Nat) (bytes : List Byte) : List Byte := bytes ++ List.replicate (size - 2 - bytes.length) 0

def Hose.recordBytes : Option Hose → List Byte
  | none => [0, 0, 0, 0]
  | some z => [1, gradeByte z.grade, meterByte z.meter, byte z.tolerance]

/-- R42, R52: the settings of a meter, its table in six places. -/
def MeterSettings.recordBytes (x : MeterSettings) : List Byte :=
  byte x.table.length :: ((x.table.map TablePoint.bytes).flatten ++ List.replicate 36 0).take 36 ++
  [byte x.phaseLimit, byte x.flowLimit]

/-- R52, R144: the metrology record. -/
def MetrologyData.recordBytes (x : MetrologyData) : List Byte :=
  recordOf 320 ((x.hoses.toList.map Hose.recordBytes).flatten ++ (x.meters.toList.map MeterSettings.recordBytes).flatten ++
    le 4 x.audit.toNat)

/-- R31: the options of a point. -/
def PointOptions.recordBytes (x : PointOptions) : List Byte :=
  le 2 x.margin ++ le 2 x.runUp ++ le 2 x.settle ++ le 2 x.authTimeout ++ le 2 x.suspendLimit

/-- R110: the card settings. -/
def CardSettings.recordBytes (x : CardSettings) : List Byte :=
  [x.mode.code, x.baud.code, byte x.gap, byte x.ready, x.reply.code]

/-- R173: a wake step in three bytes: action, outcome and wait in the first, then the time, with head B in its top bit. -/
def WakeStep.recordBytes (w : WakeStep) : List Byte :=
  (w.action.code ||| (w.outcome.code <<< 3) ||| (w.wait.code <<< 5)) ::
  le 2 (w.time + (match w.wait with
    | .headWarm .b => 32768
    | _ => 0))

/-- R144: the settings record, its wake sequence table in eight places. -/
def Settings.recordBytes (x : Settings) : List Byte :=
  recordOf 64 (x.points.a.recordBytes ++ x.points.b.recordBytes ++ le 2 x.stagger ++ byte x.linkTimeout ::
    x.card.recordBytes ++ timeBytes x.wakeTime ++ timeBytes x.sleepTime ++ flagByte x.wakeOnLift ::
    (x.policy.code ||| (byte x.table.length <<< 4)) :: (x.table.map WakeStep.recordBytes).flatten)

/-- R144: the price record. -/
def PriceContent.recordBytes (x : PriceContent) : List Byte :=
  recordOf 16 (priceSetBytes x.active ++ [byte x.generation.toNat])

/-- R144, R149: a totals record. -/
def Totals.recordBytes (t : Totals) : List Byte :=
  recordOf 40 (le 8 t.volume ++ le 8 t.money ++ le 4 t.sales.toNat ++ le 2 t.unverified ++ le 2 t.last.toNat ++
    le 2 t.setCount.toNat ++ [flagByte t.blocked])

/-- R144, R151: a snapshot record: the status of R194, then the sale record with its BACKFLOW mark behind it. -/
def Snapshot.recordBytes (x : Snapshot) : List Byte :=
  recordOf 64 (match x with
    | .none => [0]
    | .damaged => [1]
    | .ended r => 2 :: r.bytes ++ [flagByte r.backflowRaised]
    | .power r => 3 :: r.bytes ++ [flagByte r.backflowRaised])

/-- R144, R154: the power record. -/
def PowerContent.recordBytes (x : PowerContent) : List Byte := recordOf 8 [x.field.code, flagByte x.saved]

/-- The record a content belongs to. -/
def RecordContent.record : RecordContent → RecordId
  | .metrology _ => .metrology
  | .settings _ => .settings
  | .price _ => .price
  | .totals h _ => .totals h
  | .snapshot p _ => .snapshot p
  | .power _ => .power

/-- R144: the content of a record, byte by byte. -/
def RecordContent.bytes : RecordContent → List Byte
  | .metrology c => c.recordBytes
  | .settings c => c.recordBytes
  | .price c => c.recordBytes
  | .totals _ c => c.recordBytes
  | .snapshot _ c => c.recordBytes
  | .power c => c.recordBytes

/-- R145: the check code of a record's content. -/
def RecordContent.check (c : RecordContent) : BitVec 16 := crc16 c.bytes

/-! ### Writing and judging -/

/-- R145: a record with its written marker set, a content and a check code. -/
def Records.put (r : Records) (check : BitVec 16) : RecordContent → Records
  | .metrology c => { r with metrology := ⟨true, some c, check⟩ }
  | .settings c => { r with settings := ⟨true, some c, check⟩ }
  | .price c => { r with price := ⟨true, some c, check⟩ }
  | .totals h c => { r with totals := r.totals.set h ⟨true, some c, check⟩ }
  | .snapshot p c => { r with snapshots := r.snapshots.set p ⟨true, some c, check⟩ }
  | .power c => { r with power := ⟨true, some c, check⟩ }

/-- R145: the written marker is set when a record's first write begins; the check code is written last, so that until the write
completes it does not agree, and a write that collapse cuts leaves the record torn. How much of the content is new then no one
can read; the model holds the new one with a code that disagrees with it (log entry 17). -/
def Records.tear (r : Records) (c : RecordContent) : Records := r.put (~~~c.check) c

/-- R145, R146: a completed write: the record holds the content taken and the check code computed over it. -/
def Records.seal (r : Records) (c : RecordContent) : Records := r.put c.check c

/-- R145: what the store finds a record to be. -/
inductive Found (α : Type) where
  | blank
  | valid (content : α)
  | damaged
  deriving DecidableEq, Repr

/-- R145: the written marker and the check code judge a record whose content has these bytes. -/
def Cell.judge {α : Type} (bytes : α → List Byte) (c : Cell α) : Found α :=
  if c.written then
    match c.content with
    | some x => if c.check = crc16 (bytes x) then .valid x else .damaged
    | none => .damaged
  else .blank

/-- R145: the judgement of each record. -/
def Records.findMetrology (r : Records) : Found MetrologyData := r.metrology.judge MetrologyData.recordBytes
def Records.findSettings (r : Records) : Found Settings := r.settings.judge Settings.recordBytes
def Records.findPrice (r : Records) : Found PriceContent := r.price.judge PriceContent.recordBytes
def Records.findTotals (r : Records) (h : Slot) : Found Totals := (r.totals.get h).judge Totals.recordBytes
def Records.findSnapshot (r : Records) (p : Side) : Found Snapshot := (r.snapshots.get p).judge Snapshot.recordBytes
def Records.findPower (r : Records) : Found PowerContent := r.power.judge PowerContent.recordBytes

end Sys2Proof.Machine
end

