-- ==== Sys2Proof/Machine/Ops.lean ====
section
/-! DEFINITION. The shared operations of the blocks: time (R171), raising notices and finishing replies on the link (R184 to
R187), a fault's arrival at its capture (R133), queuing and beginning record writes (R146). Each changes one block and the
link port at most. -/

namespace Sys2Proof.Machine

/-- The outcome of a row: every row has a next state. -/
abbrev Outcome := Host.Outcome State Fault Refusal

/-! ### Time -/

/-- R158: the clock stops while the main supply is absent and the cell reads LOW. -/
def PowerController.clockStops (x : PowerController) : Bool := decide (x.state = .dark ∧ x.cell = .low)

/-- R171: the clock after so many milliseconds, from its present second and the milliseconds into it. -/
def PowerController.runClock (x : PowerController) (ms : Nat) : PowerController :=
  { x with clock := (x.clock + (x.clockMs + ms) / Config.second) % Config.day,
           clockMs := (x.clockMs + ms) % Config.second,
           clockEntered := x.clockEntered || decide (Config.second ≤ x.clockMs + ms) }

/-- Time goes forward to the moment `t`, if it is not past (log entry 2). -/
def State.advanceTo (s : State) (t : Nat) : State :=
  if s.power.clockStops then s.withNow (max s.now t)
  else (s.withPower (s.power.runClock (t - s.now))).withNow (max s.now t)

/-! ### Link port -/

/-- R187: of the queued notices, the one of the first class in the outbound order, and the oldest within it. -/
def bestNotice : List QueuedNotice → Option QueuedNotice
  | [] => none
  | n :: rest =>
    match bestNotice rest with
    | none => some n
    | some m => if m.subject.rank < n.subject.rank then some m else some n

/-- R91: a notice carries the superseded mark of the price table. -/
def State.carriesSuperseded (s : State) (n : Subject) : Bool := decide (n = .price) && s.prices.superseded

/-- R187: the arbiter chooses the next frame for a line that has none. A notice's content is taken afresh (R186). -/
def State.chooseFrame (s : State) : State :=
  match s.link.finished with
  | f :: rest => s.withLink { s.link with finished := rest, line := .reply f }
  | [] =>
    match bestNotice s.link.notices with
    | some n => s.withLink { s.link with
        notices := s.link.notices.filter fun m => decide (m.subject ≠ n.subject),
        line := .notice n.subject (s.noticeFrame n) false (s.carriesSuperseded n.subject) }
    | none => s.withLink { s.link with line := .idle }

/-- R187: when the line is idle, a frame that becomes ready starts at once. -/
def State.startLine (s : State) : State := if s.link.line = .idle then s.chooseFrame else s

/-- R186: the notices after a raise for a subject whose notice is not on the line. -/
def raiseIn (n : Subject) (l : List QueuedNotice) : List QueuedNotice :=
  if (l.any fun m => decide (m.subject = n))
  then l.map fun m => if m.subject = n then { m with superseded := true } else m
  else l ++ [⟨n, false⟩]

/-- R186: a block raises a notice. While the link does not run, none is queued (R190). -/
def State.raise (s : State) (n : Subject) : State :=
  if s.running then
    match s.link.line with
    | .notice m f _ carries =>
      if m = n then s.withLink { s.link with line := .notice m f true carries }
      else s.withLink { s.link with notices := raiseIn n s.link.notices }
    | _ => (s.withLink { s.link with notices := raiseIn n s.link.notices }).startLine
  else s

/-- R184: a reply becomes FINISHED. -/
def State.finish (s : State) (f : Message) : State :=
  (s.withLink { s.link with finished := s.link.finished ++ [f] }).startLine

/-- R188: the link-loss timer starts anew with the timeout in force, or is stopped with a timeout of 0. -/
def State.restartLoss (s : State) : State :=
  s.withLink { s.link with
    lossDue := if s.link.timeout = 0 then none else some (s.now + s.link.timeout * Config.second) }

/-! ### Fault captures -/

/-- R133, steps 1 to 4. -/
def Capture.arrive (c : Capture) (f : FaultRecord) : Capture :=
  match c.fault with
  | none => { c with fault := some f, token := c.token + 1 }
  | some old =>
    if old.severity.code.toNat < f.severity.code.toNat then ⟨some f, c.token + 1, true⟩
    else { c with token := c.token + 1, more := true }

/-- R133: a fault reaches the capture of its domain. -/
def State.arrive (s : State) (d : Domain) (f : FaultRecord) : State :=
  (s.setCapture d ((s.capture d).arrive f)).raise (.fault d)

/-- R132: a fault of a point domain. -/
def State.pointFault (s : State) (p : Side) (code : FaultCode) (sev : Severity) (origin : Option Origin)
    (sale : Option (BitVec 16)) : State :=
  s.arrive (Side.domain p) ⟨code, sev, origin, sale⟩

/-- Section 7.4: a fault of the CARD domain carries no origin and no sale. -/
def State.cardFault (s : State) (code : FaultCode) (sev : Severity) : State := s.arrive .card ⟨code, sev, none, none⟩

/-- Section 7.4: a fault of the SUPPLY domain. -/
def State.supplyFault (s : State) (code : FaultCode) (sev : Severity) (origin : Option Origin) : State :=
  s.arrive .supply ⟨code, sev, origin, none⟩

/-! ### Retained store -/

/-- R144: how long a write of a record takes. -/
def RecordId.writeTime : RecordId → Nat
  | .metrology => Config.metrologyWriteTime
  | _ => Config.recordWriteTime

/-- R144: the settings in force, as the settings record takes them. -/
def State.settings (s : State) : Settings :=
  ⟨⟨s.points.a.options, s.points.b.options⟩, s.arbiter.stagger, s.link.timeout, s.card.settings, s.power.wakeTime,
   s.power.sleepTime, s.power.wakeOnLift, s.power.table, s.power.policy⟩

/-- R146: the owner's working content of a record at this moment; for the power record, what its queued write takes (R154). -/
def State.content (s : State) : RecordId → RecordContent
  | .metrology => .metrology s.metrology.data
  | .settings => .settings s.settings
  | .price => .price ⟨s.prices.active, s.prices.generation⟩
  | .totals h => .totals h (s.totals h)
  | .snapshot p => .snapshot p (s.store.snapshots.get p)
  | .power => .power ⟨s.power.field, false⟩

/-- R146: a write begins with the content given. -/
def State.beginWrite (s : State) (c : RecordContent) : State :=
  s.withStore { s.store with records := s.store.records.tear c,
                             inFlight := some ⟨c, s.now + c.record.writeTime, false⟩ }

/-- R146: when no write is in flight, the oldest entry leaves the queue and its write begins. -/
def State.beginNext (s : State) : State :=
  match s.store.inFlight, s.store.queue with
  | none, r :: rest => (s.withStore { s.store with queue := rest }).beginWrite (s.content r)
  | _, _ => s

/-- R146: the queuing of a record. -/
def State.queueRecord (s : State) (r : RecordId) : State :=
  if r ∈ s.store.queue then s
  else (s.withStore { s.store with queue := s.store.queue ++ [r] }).beginNext

/-- R147: a reply waits for a write of the record that began after its change. The record's write in flight is not that
one while the record stands in the queue again. -/
def State.coveredBy (s : State) (r : RecordId) : Bool :=
  !(decide (r ∈ s.store.queue) && s.store.inFlight.any fun w => decide (w.content.record = r))

/-- R151: a snapshot record's write in flight no longer carries the working snapshot. -/
def InFlight.overtaken (w : InFlight) (p : Side) : InFlight :=
  if w.content.record = .snapshot p then { w with stale := true } else w

/-- R151: a closed sale record is handed to the store as the point's snapshot. -/
def State.handover (s : State) (p : Side) (x : Snapshot) : State :=
  s.withStore { s.store with snapshots := s.store.snapshots.set p x, dirty := s.store.dirty.set p true,
                             inFlight := s.store.inFlight.map fun w => w.overtaken p }

/-- R150: settlement of a sale into the totals of its hose slot, with the sale-number test. -/
def State.settle (s : State) (r : SaleRecord) : State :=
  if (s.totals r.hose).settles r then (s.setTotals r.hose ((s.totals r.hose).add r)).queueRecord (.totals r.hose)
  else s

/-! ### Commands at the interpreter -/

/-- An owner's judgement of a command (R184, step 3): what it does and what it answers. -/
abbrev Owner := State → State × Response

/-- R184: the reply slot of the command that its owner judges now becomes free of it. -/
def LinkPort.unjudge (l : LinkPort) : LinkPort :=
  { l with waiting := l.waiting.filter fun w => decide (w.waits ≠ .owner) }

/-- R184, R147: the reply of the command just judged becomes FINISHED, or waits for its write. -/
def State.answer (s : State) (kind tag : Byte) : Response → State
  | .onWrite r adjusted result =>
    s.withLink { s.link.unjudge with waiting := s.link.unjudge.waiting ++
      [⟨kind, tag, .write r (s.coveredBy r) (donePayload adjusted result)⟩] }
  | x => (s.withLink s.link.unjudge).finish (replyFrame kind tag x)

/-- R184: the interpreter places TAG and KIND in a free slot and hands the command to its owner. -/
def State.take (s : State) (kind tag : Byte) (o : Owner) : State :=
  let r := o (s.withLink { s.link with waiting := s.link.waiting ++ [⟨kind, tag, .owner⟩] })
  r.1.answer kind tag r.2

/-- R183: a good frame joins the inbound queue, or is discarded when four are queued. -/
def State.enqueue (s : State) (f : Frame) : State :=
  if s.link.queue.length < Config.queuePlaces then s.withLink { s.link with queue := s.link.queue ++ [f] }
  else (s.withLink { s.link with overruns := bump s.link.overruns, lastOverrun := some f.tag }).raise .link

/-- A command row: the interpreter takes the command and its owner judges it (R184). While no reply slot is free it waits in
the inbound queue as its frame (R183). While the link does not run it is not received (R190). -/
def State.command (s : State) (tag : Byte) (c : Command) (o : Owner) : State :=
  if s.running then
    if 0 < s.link.free then s.take (Command.kind c) tag o
    else s.enqueue ⟨Command.kind c, tag, Command.payload c⟩
  else s

/-- R53: the metrology switch input when a row is taken. -/
def State.readSwitch (s : State) (closed : Bool) : State := s.withPins { s.pins with metrologyClosed := closed }

/-- A command that its owner refuses. -/
def State.refuse (s : State) (why : Reason) : State × Response := (s, .refused why)

end Sys2Proof.Machine
end

