-- ==== Sys2Proof/Machine/Points.lean ====
section
/-! DEFINITION. Operations on one fuelling point that start and end no sale: voids (R8), the motor start arbiter (R13, R14),
the move to FUELLING (R11), suspension and card loss (R17, R19), and the nozzle list (R4, R5). -/

namespace Sys2Proof.Machine

/-- R32: the POINT notice of a point. -/
def State.notePoint (s : State) (p : Side) : State := s.raise (.point p)

/-! ### Voids -/

/-- R8: a present entry is removed for a cause, and a point in AUTHORIZED enters CALLING or IDLE. Without an entry nothing
happens. -/
def State.void (s : State) (p : Side) (cause : VoidCause) : State :=
  let x := s.point p
  match x.entry with
  | none => s
  | some _ =>
    let next := if x.state = .authorized then x.resting else x.state
    (s.setPoint p { x with entry := none, authDue := none, lastVoid := some cause, state := next,
                           reports := .clear }).notePoint p

/-! ### Motor start arbiter and the move to FUELLING -/

/-- R11: the link item of the move to FUELLING. -/
def State.linkHolds (s : State) (link : LinkKind) : Bool :=
  match link with
  | .none => true
  | .card => decide (s.card.state = .opened)

/-- R11: a point in STARTING enters FUELLING when its test has passed, its run-up has ended and its link holds. -/
def State.checkFuelling (s : State) (p : Side) : State :=
  let x := s.point p
  match x.sale with
  | some r =>
    if x.state = .starting ∧ x.testPassed ∧ x.runUp = .expired ∧ s.linkHolds r.link
    then (s.setPoint p { x with state := .fuelling }).notePoint p
    else s
  | none => s

/-- R14: the stagger interval has passed since the last grant, or there has been none. -/
def State.staggerPassed (s : State) : Bool :=
  match s.arbiter.lastGrant with
  | none => true
  | some t => decide (t + s.arbiter.stagger ≤ s.now)

/-- R14: a grant switches the relay on and starts the run-up interval; a run-up time of 0 expires at the grant (R11). -/
def State.grant (s : State) (p : Side) (rest : List Side) : State :=
  let x := s.point p
  let s := s.withArbiter { s.arbiter with requests := rest, lastGrant := some s.now }
  if x.options.runUp = 0 then (s.setPoint p { x with relay := true, runUp := .expired }).checkFuelling p
  else s.setPoint p { x with relay := true, runUp := .running (s.now + x.options.runUp) }

/-- R14: the arbiter checks its first request. -/
def State.checkArbiter (s : State) : State :=
  match s.arbiter.requests with
  | [] => s
  | p :: rest => if s.staggerPassed then s.grant p rest else s

/-- R13, R14: a start request joins the end of the list; the arbiter checks when it becomes first. -/
def State.requestStart (s : State) (p : Side) : State :=
  let s' := s.withArbiter { s.arbiter with requests := s.arbiter.requests ++ [p] }
  if s.arbiter.requests.isEmpty then s'.checkArbiter else s'

/-- R13, R14: a request is withdrawn; the arbiter checks when that leaves another first. -/
def State.withdraw (s : State) (p : Side) : State :=
  let rest := s.arbiter.requests.filter fun q => decide (q ≠ p)
  let s' := s.withArbiter { s.arbiter with requests := rest }
  if rest.head? ≠ s.arbiter.requests.head? then s'.checkArbiter else s'

/-! ### Suspension and card loss -/

/-- R17: the point enters SUSPENDED with the resume state given, and the suspend timer starts if the limit is not 0. -/
def State.suspendFrom (s : State) (p : Side) (r : ResumeState) : State :=
  let x := s.point p
  let due := if x.options.suspendLimit = 0 then none else some (s.now + x.options.suspendLimit * Config.second)
  (s.setPoint p { x with state := .suspended, resume := some r, suspendDue := due }).notePoint p

/-- R17: a point in FUELLING or SLOWDOWN enters SUSPENDED. -/
def State.suspendPoint (s : State) (p : Side) : State :=
  match (s.point p).state with
  | .fuelling => s.suspendFrom p .fuelling
  | .slowdown => s.suspendFrom p .slowdown
  | _ => s

/-- R19: one point's reaction to card loss. -/
def State.cardLostAt (s : State) (p : Side) : State :=
  let x := s.point p
  match x.state with
  | .authorized => if x.entry.any (fun e => decide (e.link = .card)) then s.void p .card else s
  | .fuelling | .slowdown => if x.sale.any (fun r => decide (r.link = .card)) then s.suspendPoint p else s
  | _ => s

/-- R19, R116: "card lost" is signalled to both points, A first (log entry 7). -/
def State.cardLost (s : State) : State := (s.cardLostAt .a).cardLostAt .b

/-! ### Leaving service -/

/-- R8: what an entry's removal leaves of it. -/
def Point.unentered (x : Point) (cause : VoidCause) : Point :=
  match x.entry with
  | none => x
  | some _ => { x with entry := none, authDue := none, lastVoid := some cause }

/-- R8, R15, R26, R27, R29: a point that holds no sale goes to CLOSED or HALTED at once; an entry present is first voided
with the cause given, in the same event. -/
def State.leaveService (s : State) (p : Side) (cause : VoidCause) (next : PointState) : State :=
  let x := (s.point p).unentered cause
  (s.setPoint p { x with state := next, relay := false, reports := .clear }).notePoint p

/-- R26, R29: the point enters CLOSED at once. -/
def State.closeNow (s : State) (p : Side) : State := s.leaveService p .close .closed

/-- R29: one point at the entry to STANDBY. -/
def State.closeForStandby (s : State) (p : Side) : State :=
  if (s.point p).state = .closed then s else s.closeNow p

/-- R29: one point at the entry to CLOSING. -/
def State.closeForClosing (s : State) (p : Side) : State :=
  let x := s.point p
  if x.state.saleActive then
    (if x.closing then s else (s.setPoint p { x with closing := true }).notePoint p)
  else if x.state = .closed then s else s.closeNow p

end Sys2Proof.Machine
end

