-- ==== Sys2Proof/Machine/CardOps.lean ====
section
/-! DEFINITION. The card channel's operations that other blocks also cause (chapter 6): frames joining the inbound ring, the
departures to OFF and to CONTAINED, the tamper event, and the restart (R116, R117, R119, R128, R129). -/

namespace Sys2Proof.Machine

/-- R130: the CARD notice. -/
def State.noteCard (s : State) : State := s.raise .card

/-- R115, R120: a closed frame joins the ring at its newest end, unless it has no content; a frame of 251 or 252 received bytes
that has not ended is cut to its first 250 (log entry 8). No notice. -/
def CardChannel.place (c : CardChannel) (content : List Byte) (status : FrameStatus) : CardChannel :=
  if content = [] then c else { c with inbound := c.inbound ++ [⟨content.take Config.contentLimit, status⟩] }

/-- R115, R120: a closed frame joins the ring. Its notice follows once the close has been counted (`State.noteClose`). -/
def State.placeFrame (s : State) (content : List Byte) (status : FrameStatus) : State :=
  s.withCard (s.card.place content status)

/-- R130: a frame close into the ring sends a CARD notice, which reports the bad-frame run as the close leaves it. -/
def State.noteClose (s : State) (content : List Byte) : State := if content = [] then s else s.noteCard

/-- R114, R128: the frame in reception closes ABORT with its content so far, and sends no notice of its own. -/
def CardChannel.abortReception (c : CardChannel) : CardChannel :=
  match c.reception with
  | .inside bytes _ _ => { c.place bytes .abort with reception := .outside }
  | _ => { c with reception := .outside }

/-- R119, R128: reception and transmission end, the outbound ring and a pending restart are dropped, and reader power goes
off, its moment recorded. -/
def CardChannel.cutOff (c : CardChannel) (now : Nat) (next : CardState) : CardChannel :=
  { c with state := next, restartPending := false, readyDue := none, reception := .outside, outbound := [],
           transmitting := none, txGapDue := none,
           lastPowerOff := if c.state.powered then now else c.lastPowerOff }

/-- R116: "card lost" is signalled when the channel left OPEN. -/
def State.signalLoss (s : State) (left : CardState) : State := if left = .opened then s.cardLost else s

/-- R119: CARD STOP, entry to STANDBY, the power-fail warning. -/
def State.stopCard (s : State) : State :=
  if s.card.state = .off then s.withCard { s.card with restartPending := false }
  else (s.withCard (s.card.cutOff s.now .off)).noteCard.signalLoss s.card.state

/-- R128: containment. A channel already CONTAINED repeats no step; the HALT still cancels a pending restart (R117; log
entry 32). -/
def State.contain (s : State) : State :=
  if s.card.state = .contained then s.withCard { s.card with restartPending := false }
  else (s.withCard (s.card.abortReception.cutOff s.now .contained)).noteCard.signalLoss s.card.state

/-- R129: a tamper event, and R117: a restart taken with the housing open. -/
def State.tamperEvent (s : State) : State :=
  let s := (s.cardFault .tamper .halt).contain
  (s.withCard { s.card with inbound := [], outbound := [] }).noteCard

/-- R117, R118: a pending restart completes: reader power on, STARTING, its ready timer running. -/
def State.completeRestart (s : State) : State :=
  (s.withCard { s.card with state := .starting, restartPending := false, run := 0, reception := .outside,
                            readyDue := some (s.now + s.card.settings.ready * Config.second) }).noteCard

/-- R117: an accepted restart completes at once when the off-delay has elapsed, and else is pending. -/
def State.acceptRestart (s : State) : State :=
  if s.offDelayLeft = 0 then s.completeRestart else s.withCard { s.card with restartPending := true }

/-- R117: a restart on a channel that is OFF or CONTAINED, from its tamper check on. -/
def State.tryRestart (s : State) : State × Option Reason :=
  if s.pins.tamperOpen then (s.tamperEvent, some .faultHeld)
  else if s.holdsHalt .card then (s, some .faultHeld)
  else if s.card.restartPending then (s, none)
  else (s.acceptRestart, none)

/-- R117: the READER step of the wake sequence. A channel CONTAINED stays, but an open housing raises TAMPER. -/
def State.readerStep (s : State) : State :=
  match s.card.state with
  | .off => s.tryRestart.1
  | .contained => if s.pins.tamperOpen then s.tamperEvent else s
  | .starting | .opened => s

end Sys2Proof.Machine
end

