-- ==== Sys2Proof/Machine/PowerOps.lean ====
section
/-! DEFINITION. Head power and heaters (R93, R105), and the entries to STANDBY, CLOSING and RUN (R167, R169, R170) with what
the other blocks do at them. -/

namespace Sys2Proof.Machine

/-- R179: the POWER notice. -/
def State.notePower (s : State) : State := s.raise .power

/-- R172: a schedule comes into force. The present second began without it, so no time of it has arrived in that second. -/
def PowerController.reschedule (x : PowerController) (wake sleep : Option Nat) (onLift : Bool) : PowerController :=
  { x with wakeTime := wake, sleepTime := sleep, wakeOnLift := onLift, clockEntered := false }

/-- R93: head power is switched on, and the first refresh is due at once. A head already on stays as it is. -/
def State.headOn (s : State) (p : Side) : State :=
  let h := s.head p
  if h.power then s else s.setHead p { h with power := true, mismatches := 0, result := .none, refreshDue := s.now }

/-- R93: head power is switched off. -/
def Head.dark (h : Head) : Head := { h with power := false, image := none, content := .dark, test := .none }

/-- R105: heater control of a head is enabled. -/
def State.heaterOn (s : State) (p : Side) : State := s.setHead p { s.head p with heaterEnabled := true }

/-- R93, R105: both heads lose power and heater control. -/
def State.headsOff (s : State) : State :=
  s.withHeads ⟨{ s.heads.a.dark with heaterEnabled := false }, { s.heads.b.dark with heaterEnabled := false }⟩

/-- R167: entry to STANDBY: the power controller's part with its record and its POWER notice, then the other blocks. -/
def State.enterStandby (s : State) : State :=
  let s := s.withPower { s.power with state := .standby, motorDrive := false, stepIndex := 0, wait := none,
                                      steadySince := none, field := .standby }
  let s := (s.queueRecord .power).notePower
  ((s.closeForStandby .a).closeForStandby .b).headsOff.stopCard

/-- R169: CLOSING is tested at its entry and at each sale end. -/
def State.checkClosing (s : State) : State :=
  if s.power.state = .closing ∧ s.noSale then s.enterStandby else s

/-- R169: entry to CLOSING. -/
def State.enterClosing (s : State) : State :=
  let s := s.withPower { s.power with state := .closing }
  ((s.closeForClosing .a).closeForClosing .b).notePower.checkClosing

/-- R170: entry to RUN. -/
def State.enterRun (s : State) : State :=
  let s := s.withPower { s.power with state := .run, motorDrive := true, stepIndex := 0, wait := none,
                                      steadySince := none, aborts := 0, field := .run }
  let s := ((s.headOn .a).headOn .b)
  (((s.heaterOn .a).heaterOn .b).queueRecord .power).notePower

end Sys2Proof.Machine
end

