-- ==== Sys2Proof/Machine/Prices.lean ====
section
/-! DEFINITION. Chapter 4: the price table, its changes and their apply (R76 to R91). -/

namespace Sys2Proof.Machine

/-- R80: the grade is affected by the entries against the active set. -/
def gradeAffected (entries active : PriceSet) (g : Grade) : Bool :=
  (entries.get g).isSome && decide (entries.get g ≠ active.get g)

/-- R80: the affected grades of the entries against the active set. -/
def affectedGrades (entries active : PriceSet) : BitVec 4 :=
  BitVec.ofNat 4 ((if gradeAffected entries active 0 then 1 else 0) + (if gradeAffected entries active 1 then 2 else 0) +
    (if gradeAffected entries active 2 then 4 else 0) + (if gradeAffected entries active 3 then 8 else 0))

/-- R81: the apply condition of a set of affected grades. -/
def State.applyHolds (s : State) (affected : BitVec 4) : Bool := !(s.stops affected .a || s.stops affected .b)

/-- R88, step 1: affected grades take their new prices. -/
def PriceSet.changed (active entries : PriceSet) (affected : BitVec 4) : PriceSet :=
  Vector.ofFn fun g => if maskHas affected g then entries.get g else active.get g

/-- R91: a PRICE notice with the last outcome at the generation in force. -/
def State.priceOutcome (s : State) (o : PriceOutcome) : State :=
  (s.withPrices { s.prices with lastOutcome := some ⟨o, s.prices.generation⟩ }).raise .price

/-- The pending set goes, with its deadline timer. -/
def PriceTable.dropPending (t : PriceTable) : PriceTable := { t with pending := none, deadlineDue := none }

/-- R91: a PRICE notice on the line no longer carries the superseded mark once the mark is set anew (log entry 10). -/
def Line.unreported : Line → Line
  | .notice .price f again _ => .notice .price f again false
  | l => l

/-- R86: the price table once its pending set is replaced: discarded unapplied, with the superseded mark and outcome. -/
def PriceTable.superseding (t : PriceTable) : PriceTable :=
  { t.dropPending with superseded := true, lastOutcome := some ⟨.superseded, t.generation⟩ }

/-- R86, R91: a pending set is replaced. The change that replaces it raises the PRICE notice of both in the same event
(log entry 27). -/
def State.supersede (s : State) : State :=
  match s.prices.pending with
  | none => s
  | some _ => (s.withPrices s.prices.superseding).withLink { s.link with line := s.link.line.unreported }

/-- R88, step 3: an unconsumed entry whose mask meets an affected grade is voided with cause PRICE. -/
def State.voidForPrice (s : State) (affected : BitVec 4) (p : Side) : State :=
  if (s.point p).entry.any (fun e => decide (e.mask &&& affected ≠ 0)) then s.void p .price else s

/-- R88: an apply of a set of affected grades. The pending set, if any still stands, is the one applied. -/
def State.applyPrices (s : State) (entries : PriceSet) (affected : BitVec 4) : State :=
  let s := s.withPrices { s.prices with active := PriceSet.changed s.prices.active entries affected,
                                        generation := s.prices.generation + 1 }
  let s := (s.voidForPrice affected .a).voidForPrice affected .b
  let s := s.queueRecord .price
  (s.withPrices s.prices.dropPending).priceOutcome .applied

/-- R85: the pending AT_IDLE set is tested at a sale end. -/
def State.testPending (s : State) : State :=
  match s.prices.pending with
  | some x => if x.mode = .atIdle ∧ s.applyHolds x.affected then s.applyPrices x.entries x.affected else s
  | none => s

/-- R86: the pending AT_WAKE set is applied at the entry to WAKING, without a test. -/
def State.applyAtWake (s : State) : State :=
  match s.prices.pending with
  | some x => if x.mode = .atWake then s.applyPrices x.entries x.affected else s
  | none => s

/-- R84, R86: the entries become the pending set. -/
def State.stage (s : State) (x : PendingSet) : State :=
  let due := if x.mode = .atIdle ∧ x.deadline ≠ 0 then some (s.now + x.deadline * Config.second) else none
  (s.withPrices { s.prices with pending := some x, deadlineDue := due }).priceOutcome .accepted

/-- R91: the result of an applied change: "applied", the previous active set and the new generation. -/
def appliedResult (previous : PriceSet) (generation : BitVec 8) : List Byte :=
  Config.wireCode .priceApplied :: priceSetBytes previous ++ [byte generation.toNat]

/-- R82: an empty change. -/
def State.emptyChange (s : State) (adjusted : Bool) : State × Response :=
  let s := s.supersede.priceOutcome .applied
  (s, .done adjusted (appliedResult s.prices.active s.prices.generation))

/-- R83, R84: a change applied at once. -/
def State.applyNow (s : State) (entries : PriceSet) (affected : BitVec 4) (adjusted : Bool) : State × Response :=
  let t := s.supersede.applyPrices entries affected
  (t, .onWrite .price adjusted (appliedResult s.prices.active t.prices.generation))

/-- R84, R86: a change accepted as pending. -/
def State.acceptPending (s : State) (x : PendingSet) (adjusted : Bool) : State × Response :=
  (s.supersede.stage x, .done adjusted [Config.wireCode .pricePending])

/-- R80 to R86: PRICE CHANGE. -/
def judgePriceChange (x : PriceArgs) : Owner := fun s =>
  match priceModeOf x.mode, priceEntriesOf x with
  | some mode, some entries =>
    let affected := affectedGrades entries s.prices.active
    let deadline := deadlineOf x.deadline.toNat
    let adjusted := decide (mode = some .atIdle ∧ deadline ≠ x.deadline.toNat)
    if mode = none ∧ ¬ s.applyHolds affected then s.refuse .busy
    else if affected = 0 then s.emptyChange adjusted
    else match mode with
      | none => s.applyNow entries affected adjusted
      | some .atIdle =>
        if s.applyHolds affected then s.applyNow entries affected adjusted
        else s.acceptPending ⟨entries, .atIdle, deadline, affected⟩ adjusted
      | some .atWake => s.acceptPending ⟨entries, .atWake, 0, affected⟩ adjusted
  | _, _ => s.refuse .range

/-- R87: CANCEL PRICE CHANGE. -/
def judgeCancelPriceChange : Owner := fun s =>
  match s.prices.pending with
  | none => s.refuse .notFound
  | some x => ((s.withPrices s.prices.dropPending).priceOutcome .cancelled,
      .done false (priceSetBytes x.entries ++ [x.mode.code]))

/-- R90: READ PRICES. -/
def judgeReadPrices : Owner := fun s => (s, .done false s.priceContent)

/-- PRICE_CHANGE (R80). -/
def execPriceChange (tag : Byte) (x : PriceArgs) (s : State) : Outcome :=
  .next (s.command tag (.priceChange x) (judgePriceChange x))

/-- CANCEL_PRICE_CHANGE (R87). -/
def execCancelPriceChange (tag : Byte) (s : State) : Outcome :=
  .next (s.command tag .cancelPriceChange judgeCancelPriceChange)

/-- READ_PRICES (R90). -/
def execReadPrices (tag : Byte) (s : State) : Outcome := .next (s.command tag .readPrices judgeReadPrices)

/-- DEADLINE_TIMER_EXPIRY (R85): the pending set is discarded. -/
def execDeadlineTimerExpiry (s : State) : Outcome :=
  .next (match s.prices.deadlineDue with
    | some t =>
      let s := s.advanceTo t
      (s.withPrices s.prices.dropPending).priceOutcome .expired
    | none => s)

end Sys2Proof.Machine
end

