-- ==== Sys2Proof/Machine/Sales.lean ====
section
/-! DEFINITION. A sale from its start to its end (R9, R10, R12, R16, R21, R24), a point's reaction to HALT (R27), and its
nozzle list (R4, R5). -/

namespace Sys2Proof.Machine

/-- R51: the METER notice of a meter. -/
def State.noteMeter (s : State) (m : Meter) : State := s.raise (.meter m)

/-! ### The start of a sale -/

/-- R9: what the start condition looks at. -/
structure StartItems where
  /-- the lifted hose is present and its grade is in the mask -/
  grade : Bool
  /-- the lifted hose's totals are not blocked -/
  hose : Bool
  /-- the host link is not LOST -/
  link : Bool
  /-- link NONE, or the card channel is OPEN -/
  card : Bool
  /-- no totals record of the point is waiting or in flight -/
  totals : Bool
  deriving DecidableEq, Repr

/-- R9: the items of an entry with a lifted hose. -/
def State.startItems (s : State) (p : Side) (e : Entry) (h : Slot) : StartItems where
  grade := (s.hose h).any fun z => maskHas e.mask z.grade
  hose := !(s.totals h).blocked
  link := s.link.up
  card := s.linkHolds e.link
  totals := !s.totalsPending p

/-- R9: the condition holds. -/
def StartItems.all (i : StartItems) : Bool := i.grade && i.hose && i.link && i.card && i.totals

/-- R9: the reports after an evaluation that failed: the first failing item is reported, and each report whose item is true
is clear. -/
def Reports.after (r : Reports) (i : StartItems) : Reports where
  gradeNotAllowed := !i.grade
  hoseBlocked := !i.hose && (r.hoseBlocked || i.grade)
  cardNotOpen := !i.card && (r.cardNotOpen || (i.grade && i.hose && i.link))

/-- R34: a sale takes its meter. -/
def State.takeMeter (s : State) (p : Side) (m : Meter) : State :=
  (s.setMeter m { s.meter m with holder := some p, u := 0, limitMark := false, idleErrors := 0 }).noteMeter m

/-- R103: the segment test of a head begins. -/
def State.beginTest (s : State) (p : Side) : State := s.setHead p { s.head p with test := .allOn s.now }

/-- R10: entry to STARTING for a lifted hose, its grade's price and the entry it consumes. -/
def State.enterStarting (s : State) (p : Side) (e : Entry) (h : Slot) (z : Hose) (price : Nat) : State :=
  let x := s.point p
  let number := saleNumber x.lastNumber x.stack
  let r := SaleRecord.opened p number h z.grade price s.prices.generation e x.options.margin
  let s := s.setPoint p { x with state := .starting, entry := none, authDue := none, lastNumber := number, sale := some r,
                                 reports := .clear, runUp := .stopped, testPassed := false }
  (((s.takeMeter p z.meter).beginTest p).requestStart p).notePoint p

/-- R9: the reports after an evaluation without a lifted hose: none is set, "card not open" clears when its item is true, and
the two reports on a lifted hose stay, since they have no item to be found true. -/
def Reports.unlifted (r : Reports) (card : Bool) : Reports := { r with cardNotOpen := r.cardNotOpen && !card }

/-- R9: the reports of a failed evaluation; a POINT notice carries a change. -/
def State.reportStart (s : State) (p : Side) (r : Reports) : State :=
  let x := s.point p
  if r = x.reports then s else (s.setPoint p { x with reports := r }).notePoint p

/-- R9: the start condition of a point is evaluated. -/
def State.evaluateStart (s : State) (p : Side) : State :=
  let x := s.point p
  match x.state, x.entry, x.lifted with
  | .authorized, some e, some h =>
    let i := s.startItems p e h
    let failed := s.reportStart p (x.reports.after i)
    match s.hose h with
    | some z =>
      match s.prices.active.get z.grade with
      | some price => if i.all then s.enterStarting p e h z price else failed
      | none => failed
    | none => failed
  | .authorized, some e, none => s.reportStart p (x.reports.unlifted (s.linkHolds e.link))
  | _, _, _ => s

/-! ### The end of a sale -/

/-- R24, R34: the sale's meter is released. -/
def State.releaseMeter (s : State) (p : Side) : State :=
  match Meter.all.find? fun m => decide ((s.meter m).holder = some p) with
  | some m => (s.setMeter m { s.meter m with holder := none }).noteMeter m
  | none => s

/-- R98, R104: at a sale end the head keeps the sale's figures and any test ends. -/
def State.showLastSale (s : State) (p : Side) (r : SaleRecord) : State :=
  s.setHead p { s.head p with lastSale := .figures r.displayed r.money r.unverified, test := .none }

/-- R24, step 3: the closed record is stacked, snapshotted and settled; the snapshot record is queued before the totals. -/
def State.stackSale (s : State) (p : Side) (r : SaleRecord) : State :=
  let x := s.point p
  let s := s.setPoint p { x with stack := x.stack ++ [r] }
  ((s.handover p (.ended r)).queueRecord (.snapshot p)).settle r

/-- R24, step 5: the state after a sale. -/
def State.afterSale (s : State) (p : Side) : PointState :=
  if s.holdsHalt (Side.domain p) then .halted else if (s.point p).closing then .closed else (s.point p).resting

/-- R24, step 5: the point leaves the sale-active states. -/
def State.leaveSale (s : State) (p : Side) : State :=
  (s.setPoint p { s.point p with
    state := s.afterSale p, sale := none, resume := none, suspendDue := none, runUp := .stopped, settle := none,
    runOnDue := none, closing := false, relay := false, testPassed := false }).notePoint p

/-- R24, steps 2 and 4: the last end reason is recorded, and a SALE notice reports it with the stack. -/
def State.reportSale (s : State) (p : Side) (why : Option EndReason) : State :=
  (s.setPoint p { s.point p with lastEnd := why }).raise (.sale p)

/-- R24: a sale ends. -/
def State.endSale (s : State) (p : Side) (discard : Bool) : State :=
  match (s.point p).sale with
  | none => s
  | some open_ =>
    let r := open_.close
    let s := (s.releaseMeter p).showLastSale p r
    let s := if r.displayed = 0 ∨ discard then s else s.stackSale p r
    ((s.reportSale p r.endReason).leaveSale p).testPending.checkClosing

/-- The end reason is recorded in the current sale (R72). -/
def State.recordEnd (s : State) (p : Side) (why : EndReason) : State :=
  s.setPoint p { s.point p with sale := (s.point p).sale.map fun r => r.stopped why }

/-- R12: a stop cause in STARTING ends the sale at once. -/
def State.endInStarting (s : State) (p : Side) (why : EndReason) (discard : Bool) : State :=
  let s := s.withdraw p
  ((s.setPoint p { s.point p with relay := false }).recordEnd p why).endSale p discard

/-- R21, R22: entry to STOPPING. -/
def State.enterStopping (s : State) (p : Side) (why : EndReason) : State :=
  let s := s.recordEnd p why
  let x := s.point p
  (s.setPoint p { x with state := .stopping, relay := false, suspendDue := none, resume := none,
                         settle := some ⟨s.now + x.options.settle, x.options.settle⟩,
                         runOnDue := some (s.now + Config.runOnTime) }).notePoint p

/-- R12, R21: a stop cause meets a point. -/
def State.stopCause (s : State) (p : Side) (why : EndReason) : State :=
  match (s.point p).state with
  | .starting => s.endInStarting p why false
  | .fuelling | .slowdown | .suspended => s.enterStopping p why
  | _ => s

/-- R27: a HALT fault acts on its point; `discard` for the failure of a segment test (R103). -/
def State.haltPoint (s : State) (p : Side) (discard : Bool) : State :=
  match (s.point p).state with
  | .starting => s.endInStarting p .fault discard
  | .fuelling | .slowdown | .suspended => s.enterStopping p .fault
  | .idle | .calling | .authorized => s.leaveService p .halt .halted
  | .stopping | .closed | .halted => s

/-! ### Nozzles -/

/-- R4: a lift that made its slot the lifted hose. -/
def State.lifts (s : State) (p : Side) : State :=
  let x := s.point p
  match x.state with
  | .idle => (s.setPoint p { x with state := .calling }).notePoint p
  | .authorized => (s.notePoint p).evaluateStart p
  | _ => s.notePoint p

/-- R4: a present slot whose nozzle is up joins the nozzle list. NOZZLE_CONFLICT arrives before the POINT notice (log entry 38). -/
def State.joinList (s : State) (h : Slot) : State :=
  let p := Slot.side h
  let x := s.point p
  if h ∈ x.nozzles then s
  else
    let s' := s.setPoint p { x with nozzles := x.nozzles ++ [h] }
    if x.nozzles.isEmpty then s'.lifts p
    else (s'.pointFault p .nozzleConflict .note (some (.slot h)) none).notePoint p

/-- R5: what a hang does once its slot has left the list; `lifted` when the slot was the lifted hose. -/
def State.hangs (s : State) (p : Side) (h : Slot) (lifted : Bool) : State :=
  let x := s.point p
  match x.state with
  | .calling => if x.nozzles.isEmpty then (s.setPoint p { x with state := .idle }).notePoint p else s
  | .authorized => if lifted then s.evaluateStart p else s
  | _ => if x.sale.any (fun r => decide (r.hose = h)) then s.stopCause p .nozzle else s

/-- R5: the nozzle list without a slot. -/
def State.dropSlot (s : State) (h : Slot) : State :=
  let x := s.point (Slot.side h)
  (s.setPoint (Slot.side h) { x with nozzles := x.nozzles.filter fun k => decide (k ≠ h) }).notePoint (Slot.side h)

/-- R5: a slot leaves the nozzle list. -/
def State.leaveList (s : State) (h : Slot) : State :=
  let x := s.point (Slot.side h)
  if h ∈ x.nozzles then (s.dropSlot h).hangs (Slot.side h) h (decide (x.lifted = some h)) else s

end Sys2Proof.Machine
end

