-- ==== Sys2Proof/Machine/PointCommands.lean ====
section
/-! DEFINITION. The commands of a fuelling point and the expiries of its timers (chapter 1). -/

namespace Sys2Proof.Machine

/-- R192: a command for a point; a code that names no point is refused RANGE. -/
def onPoint (b : Byte) (f : Side → Owner) : Owner := fun s =>
  match sideOf b with
  | some p => f p s
  | none => s.refuse .range

/-- DONE with no result. -/
def State.answered (s : State) : State × Response := (s, .done false [])

/-! ### Authorization -/

/-- R6: every grade of the mask has a price. -/
def State.priced (s : State) (mask : BitVec 4) : Bool :=
  Grade.all.all fun g => !maskHas mask g || (s.prices.active.get g).isSome

/-- R6, R7: the entry is made or replaced, and the start condition evaluated. -/
def State.authorize (s : State) (p : Side) (e : Entry) : State :=
  let x := s.point p
  let due := if x.options.authTimeout = 0 then none else some (s.now + x.options.authTimeout * Config.second)
  ((s.setPoint p { x with entry := some e, authDue := due, state := .authorized }).notePoint p).evaluateStart p

/-- R6: the checks of AUTHORIZE after the first. -/
def State.mayAuthorize (s : State) (p : Side) (mask : BitVec 4) : Option Reason :=
  let x := s.point p
  if s.power.state ≠ .run then some .standby
  else if x.state ≠ .idle ∧ x.state ≠ .calling ∧ x.state ≠ .authorized then some .state
  else if 1 < x.stack.length then some .stackFull
  else if s.priced mask then none else some .state

/-- R6: AUTHORIZE. -/
def judgeAuthorize (a : AuthorizeArgs) : Owner := fun s =>
  match sideOf a.point, maskOf a.mask, presetOf a.presetKind a.presetValue.toNat, linkOf a.link with
  | some p, some mask, some (preset, adjusted), some link =>
    match s.mayAuthorize p mask with
    | some why => s.refuse why
    | none =>
      let s := s.authorize p ⟨mask, preset, link, s.prices.generation⟩
      (s, .done adjusted [(s.point p).state.code])
  | _, _, _, _ => s.refuse .range

/-- R7: CANCEL. -/
def judgeCancel (b : Byte) : Owner := onPoint b fun p s =>
  if (s.point p).state = .authorized then (s.void p .cancel).answered else s.refuse .state

/-! ### Delivery -/

/-- R21: STOP. -/
def judgeStop (b : Byte) : Owner := onPoint b fun p s =>
  if (s.point p).state.saleActive then (s.stopCause p .hostStop).answered else s.refuse .state

/-- R17: SUSPEND. -/
def judgeSuspend (b : Byte) : Owner := onPoint b fun p s =>
  match (s.point p).state with
  | .fuelling | .slowdown => (s.suspendPoint p).answered
  | .suspended => s.answered
  | _ => s.refuse .state

/-- R18: unlink. -/
def SaleRecord.unlink (r : SaleRecord) : SaleRecord := { r with link := .none, unlinked := true }

/-- R18: an accepted RESUME. -/
def State.resumePoint (s : State) (p : Side) (back : ResumeState) (unlink : Bool) : State :=
  let x := s.point p
  (s.setPoint p { x with state := back.toPoint, resume := none, suspendDue := none,
                         sale := x.sale.map fun r => if unlink then r.unlink else r }).notePoint p

/-- R18: the sale of a suspended point may go on. -/
def State.mayResume (s : State) (p : Side) (unlink : Bool) : Bool :=
  unlink || (s.point p).sale.all fun r => s.linkHolds r.link

/-- R18: RESUME. The unlink flag is judged where R18 first reads it, after the point's state (R192; log entry 11). -/
def judgeResume (b u : Byte) : Owner := onPoint b fun p s =>
  match (s.point p).state, (s.point p).resume with
  | .suspended, some back =>
    match flagOf u with
    | some unlink => if s.mayResume p unlink then (s.resumePoint p back unlink).answered else s.refuse .contained
    | none => s.refuse .range
  | _, _ => s.refuse .state

/-! ### Service -/

/-- R26: the conditions of OPEN POINT after the power state. -/
def State.mayOpen (s : State) (p : Side) : Option Reason :=
  if (s.point p).state ≠ .closed then some .state
  else if !s.hasHose p then some .state
  else if s.holdsHalt (Side.domain p) then some .faultHeld
  else none

/-- R26, R28: the point enters CALLING or IDLE. -/
def State.toService (s : State) (p : Side) : State :=
  (s.setPoint p { s.point p with state := (s.point p).resting }).notePoint p

/-- R26: an OPEN step of the wake sequence. -/
def State.openStep (s : State) (p : Side) : State :=
  match s.mayOpen p with
  | none => s.toService p
  | some _ => s

/-- R26: OPEN POINT. -/
def judgeOpenPoint (b : Byte) : Owner := onPoint b fun p s =>
  if s.power.state ≠ .run then s.refuse .standby
  else match s.mayOpen p with
    | some why => s.refuse why
    | none => (s.toService p).answered

/-- R26: CLOSE POINT. -/
def judgeClosePoint (b : Byte) : Owner := onPoint b fun p s =>
  if (s.point p).state = .closed then s.answered
  else if (s.point p).state.saleActive then
    (if (s.point p).closing then s.answered
     else ((s.setPoint p { s.point p with closing := true }).notePoint p).answered)
  else (s.closeNow p).answered

/-- R28: RESTART POINT. -/
def judgeRestartPoint (b : Byte) : Owner := onPoint b fun p s =>
  if s.power.state ≠ .run then s.refuse .standby
  else if (s.point p).state ≠ .halted then s.refuse .state
  else if s.holdsHalt (Side.domain p) then s.refuse .faultHeld
  else (s.toService p).answered

/-! ### Finished sales -/

/-- R25: the stack holds a record of that number. -/
def Point.stacked (x : Point) (n : BitVec 16) : Option SaleRecord := x.stack.find? fun r => decide (r.number = n)

/-- R25: CLEAR SALE. -/
def judgeClearSale (b : Byte) (n : BitVec 16) : Owner := onPoint b fun p s =>
  let x := s.point p
  match x.stacked n with
  | some _ =>
    ((s.setPoint p { x with stack := x.stack.filter fun r => decide (r.number ≠ n) }).raise (.sale p)).answered
  | none => s.refuse .notFound

/-- R25: READ SALE; selector 0 is CURRENT (R193). -/
def judgeReadSale (b : Byte) (sel : BitVec 16) : Owner := onPoint b fun p s =>
  match if sel = 0 then (s.point p).sale else (s.point p).stacked sel with
  | some r => (s, .done false r.bytes)
  | none => s.refuse .notFound

/-! ### Point options -/

/-- R31, R14: the stagger is set, and re-timed at once. -/
def State.setStagger (s : State) (ms : Nat) : State :=
  let s' := s.withArbiter { s.arbiter with stagger := ms }
  if s.arbiter.stagger = ms then s' else s'.checkArbiter

/-- R31: SET POINT OPTIONS. -/
def judgeSetPointOptions (a : PointOptionsArgs) : Owner := onPoint a.point fun p s =>
  let s := s.setPoint p { s.point p with options := pointOptionsOf a }
  ((s.setStagger (staggerOf a)).queueRecord .settings, .onWrite .settings (pointOptionsAdjusted a) [])

/-! ### Rows -/

/-- AUTHORIZE (R6). -/
def execAuthorize (tag : Byte) (a : AuthorizeArgs) (s : State) : Outcome :=
  .next (s.command tag (.authorize a) (judgeAuthorize a))

/-- CANCEL (R7). -/
def execCancel (tag p : Byte) (s : State) : Outcome := .next (s.command tag (.cancel p) (judgeCancel p))

/-- STOP (R12, R21). -/
def execStop (tag p : Byte) (s : State) : Outcome := .next (s.command tag (.stop p) (judgeStop p))

/-- SUSPEND (R17). -/
def execSuspend (tag p : Byte) (s : State) : Outcome := .next (s.command tag (.suspend p) (judgeSuspend p))

/-- RESUME (R18). -/
def execResume (tag p u : Byte) (s : State) : Outcome := .next (s.command tag (.resume p u) (judgeResume p u))

/-- OPEN POINT (R26). -/
def execOpenPoint (tag p : Byte) (s : State) : Outcome := .next (s.command tag (.openPoint p) (judgeOpenPoint p))

/-- CLOSE POINT (R26). -/
def execClosePoint (tag p : Byte) (s : State) : Outcome := .next (s.command tag (.closePoint p) (judgeClosePoint p))

/-- RESTART POINT (R28). -/
def execRestartPoint (tag p : Byte) (s : State) : Outcome :=
  .next (s.command tag (.restartPoint p) (judgeRestartPoint p))

/-- CLEAR SALE (R25). -/
def execClearSale (tag p : Byte) (n : BitVec 16) (s : State) : Outcome :=
  .next (s.command tag (.clearSale p n) (judgeClearSale p n))

/-- READ SALE (R25). -/
def execReadSale (tag p : Byte) (sel : BitVec 16) (s : State) : Outcome :=
  .next (s.command tag (.readSale p sel) (judgeReadSale p sel))

/-- SET POINT OPTIONS (R31). -/
def execSetPointOptions (tag : Byte) (a : PointOptionsArgs) (s : State) : Outcome :=
  .next (s.command tag (.setPointOptions a) (judgeSetPointOptions a))

/-- AUTHORIZATION_TIMER_EXPIRY (R7). -/
def execAuthorizationTimerExpiry (p : Side) (s : State) : Outcome :=
  .next (match (s.point p).authDue with
    | some t => (s.advanceTo t).void p .timeout
    | none => s)

/-- STAGGER_INTERVAL_EXPIRY (R14). -/
def execStaggerIntervalExpiry (s : State) : Outcome :=
  .next (match s.arbiter.requests, s.arbiter.lastGrant with
    | _ :: _, some t => (s.advanceTo (t + s.arbiter.stagger)).checkArbiter
    | _, _ => s)

/-- RUN_UP_EXPIRY (R11). -/
def execRunUpExpiry (p : Side) (s : State) : Outcome :=
  .next (match (s.point p).runUp with
    | .running t =>
      let s := s.advanceTo t
      (s.setPoint p { s.point p with runUp := .expired }).checkFuelling p
    | _ => s)

/-- SUSPEND_TIMER_EXPIRY (R17). -/
def execSuspendTimerExpiry (p : Side) (s : State) : Outcome :=
  .next (match (s.point p).suspendDue with
    | some t => (s.advanceTo t).stopCause p .suspendLimit
    | none => s)

/-- SETTLE_INTERVAL_EXPIRY (R22). -/
def execSettleIntervalExpiry (p : Side) (s : State) : Outcome :=
  .next (match (s.point p).settle with
    | some x => (s.advanceTo x.due).endSale p false
    | none => s)

/-- RUN_ON_TIMER_EXPIRY (R22). -/
def execRunOnTimerExpiry (p : Side) (s : State) : Outcome :=
  .next (match (s.point p).runOnDue with
    | some t =>
      let s := s.advanceTo t
      (s.pointFault p .runOnLimit .note none (s.activeSale p)).endSale p false
    | none => s)

end Sys2Proof.Machine
end

