-- ==== Sys2Proof/Machine/Wake.lean ====
section
/-! DEFINITION. The wake sequence (R173 to R178), the commands and times that enter and leave it (R168, R169, R172), the
nozzle rows with their wake-on-lift, the warm inputs (R106, R107), and the power controller's other commands. -/

namespace Sys2Proof.Machine

/-! ### One step -/

/-- R174: the action of a step. -/
def State.takeAction (s : State) : WakeAction → State
  | .heater p => s.heaterOn p
  | .head p => s.headOn p
  | .reader => s.readerStep
  | .motorSupply => s.withPower { s.power with motorDrive := true }
  | .openPoint p => s.openStep p

/-- R175, R176: what a wait comes to as it begins. -/
inductive WaitStart where
  | waits
  | completes
  /-- times out, or ends unready -/
  | fails
  deriving DecidableEq, Repr

/-- R176: the channel seen by a READER_READY wait. -/
def CardChannel.readiness (c : CardChannel) : WaitStart :=
  match c.state with
  | .opened => .completes
  | .starting => .waits
  | .off => if c.restartPending then .waits else .fails
  | .contained => .fails

/-- R175, R176: a wait of a step as it begins. -/
def State.judgeWait (s : State) (w : WakeStep) : WaitStart :=
  match w.wait with
  | .none => .completes
  | .delay => if w.time = 0 then .completes else .waits
  | .headWarm p => if (s.head p).warm then .completes else if w.time = 0 then .fails else .waits
  | .readerReady => s.card.readiness
  | .supplySteady => .waits

/-- R175: the wait timer starts, and for SUPPLY_STEADY the steady interval if the supply reads ABOVE_RESTORE. -/
def State.startWait (s : State) (w : WakeStep) : State :=
  let steady := if w.wait = .supplySteady ∧ s.power.supply = .aboveRestore then some s.now else none
  s.withPower { s.power with wait := some ⟨w.wait, s.now + w.time * Config.second⟩, steadySince := steady }

/-- R174: a step begins: its number, its action, its wait unless that ends as it begins, and the POWER notice that reports it,
behind the notices of the action (log entry 38). -/
def State.beginStep (s : State) (n : Nat) (w : WakeStep) : State :=
  let s := (s.withPower { s.power with stepIndex := n }).takeAction w.action
  (if s.judgeWait w = .waits then s.startWait w else s).notePower

/-- R179: the end of a wait. -/
def State.endWait (s : State) : State := (s.withPower { s.power with wait := none, steadySince := none }).notePower

/-- R107: the cold mark of a head is set, unless it reads warm; each change sends a POINT notice. -/
def State.markCold (s : State) (p : Side) : State :=
  let h := s.head p
  if h.warm ∨ h.coldMark then s else (s.setHead p { h with coldMark := true }).notePoint p

/-- R142: the count of aborted steady waits rises, and at 2 SUPPLY_UNSTEADY is raised. -/
def State.countAbort (s : State) (n : Nat) : State :=
  let s' := s.withPower { s.power with aborts := min 2 (s.power.aborts + 1) }
  if s.power.aborts = 1 then s'.supplyFault .supplyUnsteady .halt (some (.step n)) else s'

/-- R177: ABORT. -/
def State.abortWake (s : State) (n : Nat) (w : WakeStep) : State :=
  let s := s.supplyFault .sequenceAbort .fault (some (.step n))
  (if w.wait = .supplySteady then s.countAbort n else s).enterStandby

/-- R177: DEGRADE. -/
def State.degradeWake (s : State) (n : Nat) (w : WakeStep) : State :=
  let s := s.supplyFault .sequenceTimeout .fault (some (.step n))
  match w.wait with
  | .headWarm p => s.markCold p
  | _ => s

/-- R174: the steps from number n on, as far as they run in one event. At a wait that fails the POWER notice of its end is raised
before the fault's arrival with its FAULT notice (DESIGN CHOICE, log entry 38). -/
def State.runSteps (s : State) (n : Nat) : List WakeStep → State
  | [] => s.enterRun
  | w :: rest =>
    let s := s.beginStep n w
    match s.judgeWait w with
    | .waits => s
    | .completes => s.endWait.runSteps (n + 1) rest
    | .fails =>
      match w.outcome with
      | .goOn => (s.endWait.supplyFault .sequenceTimeout .note (some (.step n))).runSteps (n + 1) rest
      | .degrade => (s.endWait.degradeWake n w).runSteps (n + 1) rest
      | .abort => s.endWait.abortWake n w

/-- R174: the steps after the one in progress. -/
def State.nextSteps (s : State) : State := s.runSteps (s.power.stepIndex + 1) (s.power.table.drop s.power.stepIndex)

/-- R175: the wait in progress completes. -/
def State.completeWait (s : State) : State := s.endWait.nextSteps

/-- R177: the wait in progress times out or ends unready. Its end sends its POWER notice before the fault arrives with its FAULT
notice: R136, R177 and R179 give the two no order (DESIGN CHOICE, log entry 38). -/
def State.failWait (s : State) : State :=
  let n := s.power.stepIndex
  match s.power.table[n - 1]? with
  | some w =>
    match w.outcome with
    | .goOn => (s.endWait.supplyFault .sequenceTimeout .note (some (.step n))).nextSteps
    | .degrade => (s.endWait.degradeWake n w).nextSteps
    | .abort => s.endWait.abortWake n w
  | none => s

/-- The wait in progress is of this kind. -/
def State.waitsFor (s : State) (w : StepWait) : Bool := s.power.wait.any fun x => decide (x.wait = w)

/-- R176: what the card channel tells a READER_READY wait in progress. -/
def State.settleReader (s : State) : State :=
  if s.waitsFor .readerReady then
    match s.card.readiness with
    | .completes => s.completeWait
    | .waits => s
    | .fails => s.failWait
  else s

/-- R174: entry to WAKING. R86 and R179 give no order of the POWER notice of the new state and the notices of the apply; the model
raises POWER first (DESIGN CHOICE, log entry 38). -/
def State.enterWaking (s : State) : State :=
  let s := (s.withPower { s.power with state := .waking, stepIndex := 0, wait := none, steadySince := none }).notePower
  s.applyAtWake.runSteps 1 s.power.table

/-- R168, R172: the part enters WAKING from STANDBY unless the SUPPLY capture holds HALT. -/
def State.tryWake (s : State) : State :=
  if s.power.state = .standby ∧ ¬ s.holdsHalt .supply then s.enterWaking else s

/-- R169, R172: what SLEEP does to RUN and WAKING. -/
def State.goToSleep (s : State) : State :=
  match s.power.state with
  | .run => s.enterClosing
  | .waking => s.enterStandby
  | _ => s

/-! ### Commands of the power controller -/

/-- R168: WAKE. -/
def judgeWake : Owner := fun s =>
  match s.power.state with
  | .standby => if s.holdsHalt .supply then s.refuse .faultHeld else s.enterWaking.answered
  | .waking | .run => s.answered
  | .restore | .closing | .dark | .powerfail => s.refuse .state

/-- R169: SLEEP. -/
def judgeSleep : Owner := fun s =>
  match s.power.state with
  | .run | .waking => s.goToSleep.answered
  | .standby | .closing => s.answered
  | .restore | .dark | .powerfail => s.refuse .state

/-- R171: SET CLOCK. -/
def judgeSetClock (v : BitVec 32) : Owner := fun s =>
  if v.toNat < Config.day then
    (s.withPower { s.power with clock := v.toNat, clockMs := 0, clockEntered := false, clockValid := true }).notePower.answered
  else s.refuse .range

/-- A settings command that its owner accepts: the settings record is queued and the reply waits for its write. -/
def State.settingsChanged (s : State) (adjusted : Bool) : State × Response :=
  (s.queueRecord .settings, .onWrite .settings adjusted [])

/-- R172: a wake time equal to the sleep time. -/
def timesClash : Option Nat → Option Nat → Bool
  | some x, some y => decide (x = y)
  | _, _ => false

/-- R172: SET SCHEDULE. -/
def judgeSetSchedule (w sl : BitVec 32) (f : Byte) : Owner := fun s =>
  match timeOf w, timeOf sl, flagOf f with
  | some w, some sl, some f =>
    if timesClash w sl then s.refuse .range
    else (s.withPower (s.power.reschedule w sl f)).settingsChanged false
  | _, _, _ => s.refuse .range

/-- R173: SET WAKE SEQUENCE. -/
def judgeSetWakeSequence (steps : List RawStep) : Owner := fun s =>
  match wakeTableOf steps with
  | some t =>
    if s.power.state = .waking then s.refuse .state
    else (s.withPower { s.power with table := t }).settingsChanged (wakeTableAdjusted steps)
  | none => s.refuse .range

/-- R166: SET RESTORE POLICY. -/
def judgeSetRestorePolicy (b : Byte) : Owner := fun s =>
  match policyOf b with
  | some x => (s.withPower { s.power with policy := x }).settingsChanged false
  | none => s.refuse .range

/-- R179: READ POWER. -/
def judgeReadPower : Owner := fun s => (s, .report s.powerReply s.powerUnplaced)

/-! ### Clock -/

/-- R172: milliseconds until the running clock advances into a second of the day; none when it has just done so. -/
def PowerController.untilSecond (x : PowerController) (t : Nat) : Nat :=
  if x.clock = t ∧ x.clockEntered then 0
  else (if x.clock < t then t - x.clock else t + Config.day - x.clock) * Config.second - x.clockMs

/-- R172: the running clock advances into the second, and has entered it once. -/
def State.arriveAt (s : State) (t : Nat) : State :=
  let s := s.advanceTo (s.now + s.power.untilSecond t)
  s.withPower { s.power with clockEntered := false }

/-- R172: a scheduled time that can arrive: its clock valid and running. -/
def State.scheduled (s : State) (t : Option Nat) : Option Nat :=
  if s.power.clockValid ∧ ¬ s.power.clockStops then t else none

/-! ### Nozzles and warm inputs -/

/-- R168: wake-on-lift at the lift of a present slot. -/
def State.liftWakes (s : State) : State := if s.power.wakeOnLift then s.tryWake else s

/-- R4: the switch of a slot opens. -/
def State.liftNozzle (s : State) (h : Slot) : State :=
  let s := s.withPins { s.pins with nozzleUp := s.pins.nozzleUp.set h true }
  if s.running ∧ (s.hose h).isSome then (s.joinList h).liftWakes else s

/-- R5: the switch of a slot closes. -/
def State.hangNozzle (s : State) (h : Slot) : State :=
  let s := s.withPins { s.pins with nozzleUp := s.pins.nozzleUp.set h false }
  if s.running then s.leaveList h else s

/-- R107: a warm reading clears the cold mark, and each change of the mark sends a POINT notice. -/
def State.warmed (s : State) (p : Side) : State :=
  let h := s.head p
  if h.coldMark then (s.setHead p { h with coldMark := false }).notePoint p else s

/-- R106: a reading of a warm input is recorded and handed to the power controller. R107 and R175 do not order the clearing of the
cold mark and the completion of a HEAD_WARM wait at one reading; the model clears the mark, with its POINT notice, first (DESIGN
CHOICE, log entry 38). -/
def State.readWarm (s : State) (p : Side) (warm : Bool) : State :=
  let s := s.setHead p { s.head p with warm := warm }
  if warm then
    let s := s.warmed p
    if s.waitsFor (.headWarm p) then s.completeWait else s
  else s

/-! ### Rows -/

/-- WAKE (R168). -/
def execWake (tag : Byte) (s : State) : Outcome := .next (s.command tag .wake judgeWake)

/-- SLEEP (R169). -/
def execSleep (tag : Byte) (s : State) : Outcome := .next (s.command tag .sleep judgeSleep)

/-- SET CLOCK (R171). -/
def execSetClock (tag : Byte) (v : BitVec 32) (s : State) : Outcome :=
  .next (s.command tag (.setClock v) (judgeSetClock v))

/-- SET SCHEDULE (R172). -/
def execSetSchedule (tag : Byte) (w sl : BitVec 32) (f : Byte) (s : State) : Outcome :=
  .next (s.command tag (.setSchedule w sl f) (judgeSetSchedule w sl f))

/-- SET WAKE SEQUENCE (R173). -/
def execSetWakeSequence (tag : Byte) (steps : List RawStep) (s : State) : Outcome :=
  .next (s.command tag (.setWakeSequence steps) (judgeSetWakeSequence steps))

/-- SET RESTORE POLICY (R166). -/
def execSetRestorePolicy (tag b : Byte) (s : State) : Outcome :=
  .next (s.command tag (.setRestorePolicy b) (judgeSetRestorePolicy b))

/-- READ POWER (R179). -/
def execReadPower (tag : Byte) (s : State) : Outcome := .next (s.command tag .readPower judgeReadPower)

/-- NOZZLE_LIFT (R4): a switch that is open already does not open. -/
def execNozzleLift (h : Slot) (s : State) : Outcome := .next (if s.pins.nozzleUp.get h then s else s.liftNozzle h)

/-- NOZZLE_HANG (R5): a switch that is closed already does not close. -/
def execNozzleHang (h : Slot) (s : State) : Outcome := .next (if s.pins.nozzleUp.get h then s.hangNozzle h else s)

/-- WARM_INPUT_CHANGE (R106). -/
def execWarmInputChange (p : Side) (warm : Bool) (s : State) : Outcome :=
  .next (
    let s := s.withPins { s.pins with warm := s.pins.warm.set p warm }
    if s.watching then s.readWarm p warm else s)

/-- SCHEDULED_WAKE_TIME (R172). -/
def execScheduledWakeTime (s : State) : Outcome :=
  .next (match s.scheduled s.power.wakeTime with
    | some t => (s.arriveAt t).tryWake
    | none => s)

/-- SCHEDULED_SLEEP_TIME (R172). -/
def execScheduledSleepTime (s : State) : Outcome :=
  .next (match s.scheduled s.power.sleepTime with
    | some t => (s.arriveAt t).goToSleep
    | none => s)

/-- WAKE_WAIT_TIMER_EXPIRY (R175, R176): a DELAY completes, every other wait times out. -/
def execWakeWaitTimerExpiry (s : State) : Outcome :=
  .next (match s.power.wait with
    | some w => if w.wait = .delay then (s.advanceTo w.due).completeWait else (s.advanceTo w.due).failWait
    | none => s)

/-- STEADY_INTERVAL_COMPLETE (R175). -/
def execSteadyIntervalComplete (s : State) : Outcome :=
  .next (match s.power.steadySince with
    | some t => (s.advanceTo (t + Config.steadyTime)).completeWait
    | none => s)

end Sys2Proof.Machine
end

