-- ==== Sys2Proof/Machine/Card.lean ====
section
/-! DEFINITION. The card channel's receiver and transmitter, its commands and its events (chapter 6). Corners of the receiver
that the rules leave to their wording are in log entry 8. -/

namespace Sys2Proof.Machine

/-! ### Transmitter -/

/-- R113: the escape of a special byte. -/
def escaped (b : Byte) : List Byte := if b = 0xF0 ∨ b = 0xF1 ∨ b = 0xF2 then [0xF2, b ^^^ 0x20] else [b]

/-- R124: the characters of a frame on the card link. -/
def CardMode.lineCharacters (m : CardMode) (content : List Byte) : List Byte :=
  match m with
  | .framed => 0xF0 :: (content ++ crcBytes content).flatMap escaped ++ [0xF1]
  | .gap => content

/-- R124: the transmitter begins the oldest outbound frame when it may. -/
def CardChannel.transmit (c : CardChannel) : CardChannel :=
  match c.outbound, c.transmitting, c.txGapDue with
  | f :: _, none, none => if c.state.powered then { c with transmitting := some (c.settings.mode.lineCharacters f) } else c
  | _, _, _ => c

/-! ### Receiver -/

/-- The reception of the card channel. -/
def State.setReception (s : State) (r : Reception) : State := s.withCard { s.card with reception := r }

/-- R121: a frame begins, or is dropped whole for want of a frame place. -/
def State.beginFrame (s : State) : State :=
  if s.card.inbound.length < Config.inboundFrames then s.setReception (.inside [] false false)
  else (s.setReception .discarding).cardFault .ringOverflow .fault

/-- R115: received bytes a frame may have; in FRAMED mode the last two are its check code. -/
def CardMode.byteLimit : CardMode → Nat
  | .framed => Config.contentLimit + 2
  | .gap => Config.contentLimit

/-- R127: the bad-frame run rises by 1. -/
def CardChannel.countBad (c : CardChannel) : CardChannel := { c with run := min 3 (c.run + 1) }

/-- R127: at a run of 3 the channel is contained. -/
def State.checkRun (s : State) : State :=
  if s.card.run = 3 then (s.cardFault .checkRun .halt).contain else s

/-- R127, R130: a close that counts raises the run, sends its notice, and at 3 contains the channel; the CARD notice is raised before
the FAULT notice of CHECK_RUN (log entry 38). -/
def State.countBad (s : State) (content : List Byte) : State :=
  ((s.withCard s.card.countBad).noteClose content).checkRun

/-- R20, R118: the channel enters OPEN, and both points look again, A first (log entry 7). -/
def State.cardOpened (s : State) (p : Side) : State :=
  match (s.point p).state with
  | .authorized => s.evaluateStart p
  | .starting => s.checkFuelling p
  | _ => s

/-- R118: entry to OPEN. -/
def State.enterOpen (s : State) : State :=
  (((s.withCard { s.card with state := .opened, readyDue := none }).noteCard).cardOpened .a).cardOpened .b

/-- R118, R127: what a frame that has closed OK does. -/
def State.goodClose (s : State) (content : List Byte) : State :=
  match s.card.state with
  | .starting => (s.noteClose content).enterOpen
  | .opened => (s.withCard { s.card with run := 0 }).noteClose content
  | _ => s.noteClose content

/-- R125, R127: what a frame that has closed CHECK does; in STARTING nothing (the probe rule). The FAULT notice is raised before the
CARD notice of the close (DESIGN CHOICE, log entry 38). -/
def State.checkClose (s : State) (content : List Byte) : State :=
  if s.card.state = .opened then
    (if s.card.settings.mode = .framed then s.cardFault .frameCheck .fault else s).countBad content
  else s.noteClose content

/-- R113, R114: the frame in reception closes OK or CHECK. -/
def State.closeFrame (s : State) (content : List Byte) (ok : Bool) : State :=
  if ok then ((s.setReception .outside).placeFrame content .ok).goodClose content
  else ((s.setReception .outside).placeFrame content .check).checkClose content

/-- R115, R127: the content limit truncates the frame. -/
def State.truncateAtLimit (s : State) (bytes : List Byte) : State :=
  let s := (s.setReception .discarding).placeFrame bytes .truncated
  if s.card.state = .opened then s.countBad bytes else s.noteClose bytes

/-- R121: want of ring space truncates the frame, or drops it when it has no byte. The CARD notice of the close is raised before the
FAULT notice (DESIGN CHOICE, log entry 38). -/
def State.truncateForSpace (s : State) (bytes : List Byte) : State :=
  (((s.setReception .discarding).placeFrame bytes .truncated).noteClose bytes).cardFault .ringOverflow .fault

/-- R115, R120, R121: one received byte of the frame in reception. A byte that exceeds both the limit and the free space meets
the limit first (log entry 8). -/
def State.receiveByte (s : State) (bytes : List Byte) (faulty : Bool) (b : Byte) : State :=
  if s.card.settings.mode.byteLimit ≤ bytes.length then s.truncateAtLimit bytes
  else if s.card.inboundFree < bytes.length + 3 then s.truncateForSpace bytes
  else s.setReception (.inside (bytes ++ [b]) faulty false)

/-- R113: the end byte closes the frame. -/
def State.endFramed (s : State) (bytes : List Byte) (faulty : Bool) : State :=
  let content := bytes.take (bytes.length - 2)
  if bytes = [] ∧ ¬ faulty then s.setReception .outside
  else if bytes.length ≤ 2 then s.closeFrame bytes false
  else s.closeFrame content (!faulty && decide (crcBytes content = bytes.drop (bytes.length - 2)))

/-- R113: a start byte inside a frame closes it CHECK and begins another, unless the close contained the channel. -/
def State.restartFrame (s : State) (bytes : List Byte) : State :=
  let s := s.closeFrame bytes false
  if s.card.state.powered then s.beginFrame else s

/-- R113: FRAMED mode. -/
def State.framedByte (s : State) (b : Byte) : State :=
  match s.card.reception with
  | .outside => if b = 0xF0 then s.beginFrame else s
  | .discarding => if b = 0xF0 then s.beginFrame else if b = 0xF1 then s.setReception .outside else s
  | .inside bytes faulty escape =>
    if b = 0xF0 then s.restartFrame bytes
    else if b = 0xF1 then s.endFramed bytes (faulty || escape)
    else if escape then s.receiveByte bytes faulty (b ^^^ 0x20)
    else if b = 0xF2 then s.setReception (.inside bytes faulty true)
    else s.receiveByte bytes faulty b

/-- R114: GAP mode. -/
def State.gapByte (s : State) (b : Byte) : State :=
  let s := if s.card.reception = .outside then s.beginFrame else s
  match s.card.reception with
  | .inside bytes faulty _ => s.receiveByte bytes faulty b
  | _ => s

/-- R114: the gap time runs from the last character. -/
def State.noteCharacter (s : State) : State := s.withCard { s.card with rxLast := s.now }

/-- R113, R114: a byte received in STARTING or OPEN. -/
def State.cardByte (s : State) (b : Byte) : State :=
  match s.card.settings.mode with
  | .framed => s.noteCharacter.framedByte b
  | .gap => s.noteCharacter.gapByte b

/-- R125: a line error marks the frame in reception. -/
def Reception.mark : Reception → Reception
  | .inside bytes _ escape => .inside bytes true escape
  | r => r

/-- R125: a line error. In GAP mode outside a frame it begins one. Where that frame finds no place in the ring, RING_OVERFLOW
arrives before LINE_ERROR; R121 and R125 give the two no order (DESIGN CHOICE, log entry 38). -/
def State.lineError (s : State) : State :=
  let s := s.noteCharacter
  let s := if s.card.settings.mode = .gap ∧ s.card.reception = .outside then s.beginFrame else s
  if s.card.state = .opened ∧ s.card.settings.mode = .gap then (s.cardFault .lineError .halt).contain
  else (s.setReception s.card.reception.mark).cardFault .lineError .note

/-- R126: a break. -/
def State.breakReception (s : State) : State :=
  let s := s.cardFault .cardBreak .note
  match s.card.reception with
  | .inside bytes _ _ => ((s.setReception .outside).placeFrame bytes .abort).noteClose bytes
  | _ => s.setReception .outside

/-- R114: the gap ends the frame in reception. -/
def State.gapExpiry (s : State) : State :=
  let t := s.card.rxLast + s.card.settings.gap
  match s.card.reception with
  | .inside bytes faulty _ => (s.advanceTo t).closeFrame bytes (!faulty)
  | .discarding => (s.advanceTo t).setReception .outside
  | .outside => s

/-! ### Commands -/

/-- R112: CARD MODE. -/
def judgeCardMode (a : CardModeArgs) : Owner := fun s =>
  match cardSettingsOf a with
  | some x =>
    if s.card.state ≠ .off ∨ s.card.restartPending then s.refuse .state
    else (s.withCard { s.card with settings := x }).settingsChanged (cardSettingsAdjusted a)
  | none => s.refuse .range

/-- R117: CARD RESTART acts in WAKING, RUN and CLOSING. -/
def State.restartable (s : State) : Bool :=
  match s.power.state with
  | .waking | .run | .closing => true
  | _ => false

/-- R117: the reply to a restart that passed, or did not pass, its checks. -/
def restartReply (x : State × Option Reason) : State × Response :=
  match x.2 with
  | some why => (x.1.settleReader, .refused why)
  | none => (x.1.settleReader, .done false (le 2 x.1.offDelayLeft))

/-- R117: CARD RESTART. -/
def judgeCardRestart : Owner := fun s =>
  if !s.restartable then s.refuse .standby
  else if s.card.state.powered then s.refuse .state
  else restartReply s.tryRestart

/-- R119: CARD STOP. -/
def judgeCardStop : Owner := fun s => s.stopCard.settleReader.answered

/-- R122, R193: CARD TAKE; status 04 is NONE and 05 CONTAINED. -/
def judgeCardTake : Owner := fun s =>
  match s.card.inbound with
  | f :: rest => (s.withCard { s.card with inbound := rest }, .taken f rest.length)
  | [] =>
    if s.card.state ≠ .contained then (s, .done false [4, 0])
    else match s.card.settings.reply with
      | .empty => (s, .done false [5, 0])
      | .refuse => s.refuse .contained

/-- R123: the outbound ring takes a frame of that length. -/
def CardChannel.outboundRoom (c : CardChannel) (n : Nat) : Bool :=
  decide (c.outbound.length < Config.outboundFrames ∧ c.outboundCost + n + 2 ≤ Config.outboundBytes)

/-- R123: CARD SEND. -/
def judgeCardSend (content : List Byte) : Owner := fun s =>
  if content = [] then s.refuse .length
  else if s.card.state = .contained then s.refuse .contained
  else if s.card.state = .off then s.refuse .state
  else if !s.card.outboundRoom content.length then s.refuse .busy
  else (s.withCard { s.card with outbound := s.card.outbound ++ [content] }.transmit).answered

/-- R130: READ CARD. -/
def judgeReadCard : Owner := fun s => (s, .done false s.cardContent)

/-! ### Rows -/

/-- CARD MODE (R112). -/
def execCardMode (tag : Byte) (a : CardModeArgs) (s : State) : Outcome :=
  .next (s.command tag (.cardMode a) (judgeCardMode a))

/-- CARD RESTART (R117). -/
def execCardRestart (tag : Byte) (s : State) : Outcome := .next (s.command tag .cardRestart judgeCardRestart)

/-- CARD STOP (R119). -/
def execCardStop (tag : Byte) (s : State) : Outcome := .next (s.command tag .cardStop judgeCardStop)

/-- CARD TAKE (R122). -/
def execCardTake (tag : Byte) (s : State) : Outcome := .next (s.command tag .cardTake judgeCardTake)

/-- CARD SEND (R123). -/
def execCardSend (tag : Byte) (content : List Byte) (s : State) : Outcome :=
  .next (s.command tag (.cardSend content) (judgeCardSend content))

/-- READ CARD (R130). -/
def execReadCard (tag : Byte) (s : State) : Outcome := .next (s.command tag .readCard judgeReadCard)

/-- CARD_BYTE_RECEIVED (R113, R114): in OFF and CONTAINED the receive line is not read (R111). -/
def execCardByteReceived (b : Byte) (s : State) : Outcome :=
  .next (if s.card.state.powered then (s.cardByte b).settleReader else s)

/-- CARD_LINE_ERROR (R125). -/
def execCardLineError (s : State) : Outcome := .next (if s.card.state.powered then s.lineError.settleReader else s)

/-- CARD_BREAK (R126). -/
def execCardBreak (s : State) : Outcome := .next (if s.card.state.powered then s.breakReception else s)

/-- CARD_GAP_EXPIRY (R114). -/
def execCardGapExpiry (s : State) : Outcome :=
  .next (if s.card.state.powered ∧ s.card.settings.mode = .gap then s.gapExpiry.settleReader else s)

/-- READY_TIMER_EXPIRY (R118). -/
def execReadyTimerExpiry (s : State) : Outcome :=
  .next (match s.card.readyDue with
    | some t => ((s.advanceTo t).cardFault .readyTimeout .halt).contain.settleReader
    | none => s)

/-- RESTART_OFF_DELAY_ELAPSED (R117). -/
def execRestartOffDelayElapsed (s : State) : Outcome :=
  .next (
    if s.card.restartPending then (s.advanceTo (s.card.lastPowerOff + Config.offDelay)).completeRestart.settleReader
    else s)

/-- CARD_FRAME_SENT (R124): the frame leaves the ring; in GAP mode the gap that follows holds back the next. -/
def execCardFrameSent (s : State) : Outcome :=
  .next (match s.card.transmitting with
    | some _ =>
      let due := if s.card.settings.mode = .gap then some (s.now + s.card.settings.gap) else none
      s.withCard { s.card with outbound := s.card.outbound.tail, transmitting := none, txGapDue := due }.transmit
    | none => s)

/-- CARD_TX_GAP_ELAPSED (R124). -/
def execCardTxGapElapsed (s : State) : Outcome :=
  .next (match s.card.txGapDue with
    | some t =>
      let s := s.advanceTo t
      s.withCard { s.card with txGapDue := none }.transmit
    | none => s)

/-- R129: the reading of the tamper input. -/
def State.readTamper (s : State) (isOpen : Bool) : State := s.withCard { s.card with tamperOpen := isOpen }

/-- TAMPER (R129): the reading changes from closed to open. -/
def execTamper (s : State) : Outcome :=
  .next (
    let t := s.withPins { s.pins with tamperOpen := true }
    if s.watching ∧ ¬ s.pins.tamperOpen then (t.readTamper true).tamperEvent.settleReader else t)

/-- TAMPER_INPUT_CLOSED (R129): the reading changes from open to closed and raises nothing. -/
def execTamperInputClosed (s : State) : Outcome :=
  .next (
    let t := s.withPins { s.pins with tamperOpen := false }
    if s.watching then t.readTamper false else t)

end Sys2Proof.Machine
end

