-- ==== Sys2Proof/Machine/Faults.lean ====
section
/-! DEFINITION. READ FAULT and CLEAR FAULT (R137, R138). -/

namespace Sys2Proof.Machine

/-- R138: a capture emptied; its token stays. -/
def Capture.clear (c : Capture) : Capture := { c with fault := none, more := false }

/-- R138, R142: the capture of a domain is emptied, and the power controller is told of SUPPLY. -/
def State.emptyCapture (s : State) (d : Domain) : State :=
  let s := (s.setCapture d (s.capture d).clear).raise (.fault d)
  if d = .supply then s.withPower { s.power with aborts := 0 } else s

/-- R137: READ FAULT. -/
def judgeReadFault (b : Byte) : Owner := fun s =>
  match domainOf b with
  | some d => (s, .done false (s.capture d).bytes)
  | none => s.refuse .range

/-- R138: CLEAR FAULT. -/
def judgeClearFault (b token : Byte) : Owner := fun s =>
  match domainOf b with
  | some d =>
    let c := s.capture d
    if 15 < token.toNat then s.refuse .range
    else if token.toNat ≠ c.token.toNat then (s, .stale c.token)
    else (if c.fault.isSome then s.emptyCapture d else s, .done false [token])
  | none => s.refuse .range

/-- READ_FAULT (R137). -/
def execReadFault (tag d : Byte) (s : State) : Outcome := .next (s.command tag (.readFault d) (judgeReadFault d))

/-- CLEAR_FAULT (R138). -/
def execClearFault (tag d token : Byte) (s : State) : Outcome :=
  .next (s.command tag (.clearFault d token) (judgeClearFault d token))

end Sys2Proof.Machine
end

