-- ==== Sys2Proof/Machine/Heads.lean ====
section
/-! DEFINITION. The display unit (chapter 5): what a head shows, refresh and echo check, segment test, and READ HEAD. -/

namespace Sys2Proof.Machine

/-! ### Digits and fields -/

/-- R94: segments a to g of a glyph. -/
def Glyph.segments : Glyph → List Bool
  | .digit 0 => [true, true, true, true, true, true, false]
  | .digit 1 => [false, true, true, false, false, false, false]
  | .digit 2 => [true, true, false, true, true, false, true]
  | .digit 3 => [true, true, true, true, false, false, true]
  | .digit 4 => [false, true, true, false, false, true, true]
  | .digit 5 => [true, false, true, true, false, true, true]
  | .digit 6 => [true, false, true, true, true, true, true]
  | .digit 7 => [true, true, true, false, false, false, false]
  | .digit 8 => [true, true, true, true, true, true, true]
  | .digit _ => [true, true, true, true, false, true, true]
  | .dash => [false, false, false, false, false, false, true]
  | .blank => [false, false, false, false, false, false, false]
  | .allOn => [true, true, true, true, true, true, true]

/-- R195: the eight segment states of a digit, its decimal point last. -/
def Digit.segments (d : Digit) : List Bool := d.glyph.segments ++ [d.point]

/-- R195: the segment states of an image in chain order. -/
def chain (digits : List Digit) : List Bool := digits.flatMap Digit.segments

/-- R94: a field of `n` equal digits without decimal point. -/
def plainField (n : Nat) (g : Glyph) : List Digit := List.replicate n ⟨g, false⟩

/-- R94: a field shown all on. -/
def onField (n : Nat) : List Digit := List.replicate n ⟨.allOn, true⟩

/-- The decimal digit of weight w. -/
def digitAt (v w : Nat) : Glyph := .digit (v / w % 10)

/-- R95: a leading digit, blank while the value lies below its weight. -/
def leadingDigit (v w : Nat) : Digit := ⟨if v < w then .blank else digitAt v w, false⟩

/-- R95: a figure in the money or volume field. -/
def figureField (v : Nat) : List Digit :=
  [leadingDigit v 100000, leadingDigit v 10000, leadingDigit v 1000, ⟨digitAt v 100, true⟩, ⟨digitAt v 10, false⟩,
   ⟨digitAt v 1, false⟩]

/-- R96: a price in its field. -/
def priceField (v : Nat) : List Digit :=
  [⟨digitAt v 1000, true⟩, ⟨digitAt v 100, false⟩, ⟨digitAt v 10, false⟩, ⟨digitAt v 1, false⟩]

/-- R96: the price field of a grade at a point. -/
def State.gradeField (s : State) (p : Side) (g : Grade) : List Digit :=
  if s.carries p g then
    match s.prices.active.get g with
    | some v => priceField v
    | none => plainField 4 .dash
  else plainField 4 .blank

/-- R96: the four price fields. -/
def State.priceFields (s : State) (p : Side) : List Digit := Grade.all.flatMap (s.gradeField p)

/-! ### Content -/

/-- R97: the content kind of a head whose power is on. -/
def State.contentKind (s : State) (p : Side) : ContentKind :=
  match (s.point p).state with
  | .closed => .closed
  | .halted => .halted
  | .idle | .calling | .authorized => .lastSale
  | .starting => match (s.head p).test with
    | .allOn _ => .testOn
    | .allOff _ => .testOff
    | .none => .running
  | .fuelling | .slowdown | .suspended | .stopping => .running

/-- Money and volume fields with figures, or dashes for figures that are not verified. -/
def figureFields (cl cents : Nat) (unverified : Bool) : List Digit :=
  if unverified then plainField 12 .dash else figureField cents ++ figureField cl

/-- R98: money and volume of the last sale. -/
def LastSale.fields : LastSale → List Digit
  | .none => figureFields 0 0 false
  | .figures cl cents u => figureFields cl cents u
  | .damaged => plainField 12 .dash

/-- R99: money and volume of the current sale. -/
def State.saleFields (s : State) (p : Side) : List Digit :=
  match (s.point p).sale with
  | some r => figureFields r.displayed r.money r.unverified
  | none => plainField 12 .blank

/-- R97: the image of a content kind. -/
def State.imageOf (s : State) (p : Side) : ContentKind → List Digit
  | .dark | .testOff => plainField 28 .blank
  | .closed => plainField 12 .blank ++ s.priceFields p
  | .halted => plainField 12 .dash ++ plainField 16 .blank
  | .lastSale => (s.head p).lastSale.fields ++ s.priceFields p
  | .testOn => onField 28
  | .running => s.saleFields p ++ s.priceFields p

/-! ### Refresh -/

/-- R101: a fault of a head. -/
def State.headFault (s : State) (p : Side) (code : FaultCode) (sev : Severity) : State :=
  s.pointFault p code sev (some (.head p)) (s.activeSale p)

/-- The mismatch count of a head is set. -/
def State.setMismatches (s : State) (p : Side) (n : Nat) : State := s.setHead p { s.head p with mismatches := n }

/-- R101: a mismatched refresh outside a test. -/
def State.mismatch (s : State) (p : Side) : State :=
  let n := (s.head p).mismatches
  if 3 ≤ n then s
  else
    let s := (s.setMismatches p (n + 1)).headFault p .displayMismatch .note
    if n = 2 then (s.headFault p .displayFault .halt).haltPoint p false else s

/-- R103: a mismatched refresh of a test image. -/
def State.failTest (s : State) (p : Side) : State :=
  ((s.setHead p { s.head p with mismatches := 3, test := .none }).headFault p .displayFault .halt).haltPoint p true

/-- R97: a test image. -/
def ContentKind.isTest (k : ContentKind) : Bool := decide (k = .testOn) || decide (k = .testOff)

/-- R100, step 5: a refresh result is acted on. -/
def State.actOnRefresh (s : State) (p : Side) (kind : ContentKind) (agree : Bool) : State :=
  if agree then s.setMismatches p 0 else if kind.isTest then s.failTest p else s.mismatch p

/-- R100: a refresh with the states read back. -/
def State.refresh (s : State) (p : Side) (echo : List Bool) : State :=
  let kind := s.contentKind p
  let image := s.imageOf p kind
  let agree := decide (chain image = echo)
  (s.setHead p { s.head p with content := kind, image := some image,
                               result := if agree then .matched else .mismatched }).actOnRefresh p kind agree

/-- R108: READ HEAD. -/
def judgeReadHead (b : Byte) : Owner := onPoint b fun p s => (s, .done false (s.headReply p))

/-! ### Rows -/

/-- READ_HEAD (R108). -/
def execReadHead (tag p : Byte) (s : State) : Outcome := .next (s.command tag (.readHead p) (judgeReadHead p))

/-- HEAD_REFRESH (R100): a head is refreshed only while its power is on. -/
def execHeadRefresh (p : Side) (echo : List Bool) (s : State) : Outcome :=
  .next (
    if (s.head p).power then
      let s := s.advanceTo (s.head p).refreshDue
      (s.setHead p { s.head p with refreshDue := (s.head p).refreshDue + Config.refreshPeriod }).refresh p echo
    else s)

/-- SEGMENT_TEST_ALL_ON_END (R103). -/
def execSegmentTestAllOnEnd (p : Side) (s : State) : Outcome :=
  .next (match (s.head p).test with
    | .allOn since =>
      let s := s.advanceTo (since + Config.allOnTime)
      s.setHead p { s.head p with test := .allOff s.now }
    | _ => s)

/-- R103: "segment test passed" reaches the point. -/
def State.passTest (s : State) (p : Side) : State :=
  let s := s.setHead p { s.head p with test := .none }
  (s.setPoint p { s.point p with testPassed := true }).checkFuelling p

/-- SEGMENT_TEST_ALL_OFF_END (R103). -/
def execSegmentTestAllOffEnd (p : Side) (s : State) : Outcome :=
  .next (match (s.head p).test with
    | .allOff since => (s.advanceTo (since + Config.allOffTime)).passTest p
    | _ => s)

end Sys2Proof.Machine
end

