-- ==== Sys2Proof/Machine/Meters.lean ====
section
/-! DEFINITION. The meter unit (chapter 2): pulser decoding, windows, the window operation of a sale with the threshold checks
of chapter 3, unattributed flow, the metrology commands, and the commands on totals and snapshots (R155, R156). -/

namespace Sys2Proof.Machine

/-! ### Pulser decoding -/

/-- R35: the next pair in forward order. -/
def nextPair (x : Phases) : Phases := ⟨!x.two, x.one⟩

/-- R35, R40: a forward step of a running count. -/
def MeterUnit.stepUp (x : MeterUnit) : MeterUnit :=
  if x.count < Config.countLimit then { x with count := x.count + 1 } else { x with overrange := true }

/-- R35, R40: a reverse step. -/
def MeterUnit.stepDown (x : MeterUnit) : MeterUnit :=
  if -Config.countLimit < x.count then { x with count := x.count - 1 } else { x with overrange := true }

/-- A change of a point's current sale record. -/
def State.updateSale (s : State) (p : Side) (f : SaleRecord → SaleRecord) : State :=
  s.setPoint p { s.point p with sale := (s.point p).sale.map f }

/-- R48: the unverified mark is set. -/
def SaleRecord.doubt (r : SaleRecord) : SaleRecord := { r with unverified := true }

/-- R37: a phase error on the meter of a sale. -/
def State.salePhaseError (s : State) (m : Meter) (p : Side) : State :=
  match (s.point p).sale with
  | none => s
  | some r =>
    let n := bump r.phaseErrors
    let s := s.updateSale p fun r => { r with phaseErrors := n }
    let s := if r.phaseErrors = 0 then s.pointFault p .phaseError .note (some (.meter m)) (some r.number) else s
    if r.phaseErrors < n ∧ n = (s.meterSettings m).phaseLimit then
      ((s.updateSale p SaleRecord.doubt).pointFault p .meterTaint .fault (some (.meter m)) (some r.number)).stopCause p
        .fault
    else s

/-- R37, R38: a phase error. -/
def State.phaseError (s : State) (m : Meter) : State :=
  let x := s.meter m
  match x.holder with
  | some p => s.salePhaseError m p
  | none => s.setMeter m { x with idleErrors := bump x.idleErrors }

/-- R35: a transition of a meter's pair; the new pair becomes the reference. -/
def State.transition (s : State) (m : Meter) (pair : Phases) : State :=
  let x := s.meter m
  let y := { x with reference := pair }
  if pair = x.reference then s
  else if pair = nextPair x.reference then s.setMeter m y.stepUp
  else if nextPair pair = x.reference then s.setMeter m y.stepDown
  else (s.setMeter m y).phaseError m

/-! ### Windows -/

/-- R40: the overrange of a sale's window. -/
def State.saleOverrange (s : State) (m : Meter) (p : Side) : State :=
  (s.updateSale p SaleRecord.doubt).pointFault p .rateOverrange .fault (some (.meter m)) (s.activeSale p)

/-- R45: the debt of a sale is past the tolerance of its hose, for the first time. -/
def State.backflows (s : State) (r : SaleRecord) : Bool :=
  !r.backflowRaised && (s.hose r.hose).any fun z => decide (z.tolerance * Config.nlPerCl < r.d)

/-- R44, R45: the window volume joins the sale; `acts` while the point reacts to what the window raises. -/
def State.saleVolume (s : State) (p : Side) (dv : Int) (acts : Bool) : State :=
  let s := s.updateSale p fun r => r.addVolume dv
  match (s.point p).sale with
  | some r =>
    if dv < 0 ∧ s.backflows r then
      let s := (s.updateSale p fun r => { r with backflowRaised := true }).pointFault p .backflow .fault
        (some (.slot r.hose)) (some r.number)
      if acts then s.stopCause p .fault else s
    else s
  | none => s

/-- R46, R61: CAPACITY_SATURATED. -/
def State.saturated (s : State) (p : Side) : State :=
  s.pointFault p .capacitySaturated .fault none (s.activeSale p)

/-- R46: the displayed volume; `r` is the record before the window. -/
def State.saleDisplay (s : State) (p : Side) (r : SaleRecord) : State :=
  let s := s.updateSale p SaleRecord.showVolume
  if (s.point p).sale.any (fun t => volumeBinds t.v) && !volumeBinds r.v then s.saturated p else s

/-- R60, R61: the money; `r` is the record before the window. -/
def State.saleMoney (s : State) (p : Side) (r : SaleRecord) : State :=
  let s := s.updateSale p SaleRecord.showMoney
  if (s.point p).sale.any (fun t => moneyBinds t.displayed t.unitPrice) && !moneyBinds r.displayed r.unitPrice
  then s.saturated p else s

/-- R67: the end reason of a target reached. -/
def TargetSource.reason : TargetSource → EndReason
  | .preset => .preset
  | .capacity => .capacity

/-- R68: "preset reached" or "capacity reached". -/
def State.targetReached (s : State) (p : Side) (why : EndReason) : State :=
  match (s.point p).state with
  | .starting | .fuelling | .slowdown => s.stopCause p why
  | _ => s

/-- R69: "slow-down reached". -/
def State.slowdownReached (s : State) (p : Side) : State :=
  let x := s.point p
  if x.state = .fuelling then (s.setPoint p { x with state := .slowdown }).notePoint p else s

/-- R67: the threshold checks. -/
def State.checkThresholds (s : State) (p : Side) : State :=
  match (s.point p).sale with
  | some r =>
    if r.target ≤ r.displayed then s.targetReached p r.targetSource.reason
    else if r.slowdown ≤ r.displayed then s.slowdownReached p
    else s
  | none => s

/-- R22: a window with a nonzero count restarts the settle interval of a point in STOPPING. -/
def State.restartSettle (s : State) (p : Side) (n : Int) : State :=
  let x := s.point p
  match x.state, x.settle with
  | .stopping, some y => if n = 0 then s else s.setPoint p { x with settle := some ⟨s.now + y.length, y.length⟩ }
  | _, _ => s

/-- R47: the window operation of a sale, with net count n; `overrange` is the overrange mark. At the power-fail warning the point
does not react (`acts` false, R73; log entry 12). -/
def State.saleWindow (s : State) (m : Meter) (p : Side) (n : Int) (overrange acts : Bool) : State :=
  match (s.point p).sale with
  | none => s
  | some r =>
    let s := if overrange then s.saleOverrange m p else s
    let s := s.saleVolume p (windowVolume (s.meterSettings m).table n) acts
    let s := (s.saleDisplay p r).saleMoney p r
    if acts then (s.checkThresholds p).restartSettle p n else s

/-- R40: the overrange of a window that no sale holds. -/
def State.idleOverrange (s : State) (m : Meter) : State :=
  match s.owner m with
  | some p => s.pointFault p .rateOverrange .fault (some (.meter m)) none
  | none => s

/-- R50: |U| has reached the unattributed-flow limit. -/
def State.limitReached (s : State) (m : Meter) : State :=
  let s := s.setMeter m { s.meter m with limitMark := true }
  let s := match s.owner m with
    | some p => (s.pointFault p .unattributedFlow .halt (some (.meter m)) none).haltPoint p false
    | none => s
  s.noteMeter m

/-- R49, R50: a window volume without a sale. R47 orders the faults of a held meter only; here the model raises RATE_OVERRANGE of
R40 before UNATTRIBUTED_FLOW of R50 (DESIGN CHOICE, log entry 38). -/
def State.idleWindow (s : State) (m : Meter) (n : Int) (overrange : Bool) : State :=
  let s := if overrange then s.idleOverrange m else s
  let x := s.meter m
  let u := saturate64 (x.u + windowVolume (s.meterSettings m).table n)
  let s := s.setMeter m { x with u := u }
  if (s.meterSettings m).flowLimit * Config.nlPerCl ≤ u.natAbs ∧ ¬ x.limitMark then s.limitReached m else s

/-- R39, steps 1 and 4: the window of a meter ends and the next begins. -/
def MeterUnit.endWindow (x : MeterUnit) : MeterUnit :=
  { x with lastCount := x.count, lastOverrange := x.overrange, count := 0, overrange := false }

/-- R39, R51: the window end of one meter; `acts` as in `saleWindow`. The METER notice of an overrange reports the meter as its
window leaves it. -/
def State.meterWindow (s : State) (acts : Bool) (m : Meter) : State :=
  let x := s.meter m
  let s := s.setMeter m x.endWindow
  let s := match x.holder with
    | some p => s.saleWindow m p x.count x.overrange acts
    | none => s.idleWindow m x.count x.overrange
  if x.overrange then s.noteMeter m else s

/-- R39: the common window end of the six meters, M0 first (log entry 7). -/
def State.windowEnd (s : State) : State := Meter.all.foldl (fun s m => s.meterWindow true m) s

/-! ### Metrology commands -/

/-- R57, steps 1 and 2: the working copy changes and the audit counter rises. -/
def State.changeMetrology (s : State) (d : MetrologyData) : State :=
  s.withMetrology { s.metrology with data := { d with audit := s.metrology.data.audit + 1 } }

/-- R57, step 4. -/
def State.metrologyChanged (s : State) : State × Response := (s.queueRecord .metrology, .onWrite .metrology false [])

/-- R54: no present slot of the other point names the meter. -/
def State.meterFree (s : State) (h : Slot) (m : Meter) : Bool :=
  Slot.all.all fun k => decide (Slot.side k = Slot.side h) || (s.hose k).all fun z => decide (z.meter ≠ m)

/-- R54: a slot made absent leaves the nozzle list as if hung (R4, R5). Where it was the last present slot of the point, the
point stays in its state, so that CALLING stays CALLING with an empty list (log entry 33). -/
def State.delist (s : State) (h : Slot) : State :=
  let x := s.point (Slot.side h)
  if !s.hasHose (Slot.side h) ∧ x.state = .calling then (if h ∈ x.nozzles then s.dropSlot h else s) else s.leaveList h

/-- R4, R54: what a slot made present or absent does to the nozzle list. -/
def State.relist (s : State) (h : Slot) (present : Bool) : State :=
  if present then (if s.pins.nozzleUp.get h then s.joinList h else s) else s.delist h

/-- R9: a changed grade of the lifted hose makes its point evaluate. -/
def State.regrade (s : State) (h : Slot) (old : Option Hose) : State :=
  let p := Slot.side h
  if (s.point p).lifted = some h ∧ (s.hose h).map Hose.grade ≠ old.map Hose.grade ∧ old.isSome then s.evaluateStart p
  else s

/-- R57, step 3: the meters a changed slot names before and after, once each. The rule gives the notices of two meters no
order; the model raises that of the meter named before first, then that of the one named after (DESIGN CHOICE, log entry
36). -/
def changedMeters (old new : Option Hose) : List Meter :=
  if old = new then []
  else match old, new with
    | some x, some y => if x.meter = y.meter then [x.meter] else [x.meter, y.meter]
    | some x, none => [x.meter]
    | none, some y => [y.meter]
    | none, none => []

/-- R54, R57: an accepted SET HOSE. -/
def State.setHose (s : State) (h : Slot) (z : Option Hose) : State :=
  let old := s.hose h
  let d := s.metrology.data
  let s := s.changeMetrology { d with hoses := d.hoses.set h z }
  let s := if old.isSome = z.isSome then s else s.relist h z.isSome
  (changedMeters old z).foldl State.noteMeter (s.regrade h old)

/-- R53, R54: SET HOSE. -/
def judgeSetHose (a : HoseArgs) : Owner := fun s =>
  if !s.pins.metrologyClosed then s.refuse .locked
  else match slotOf a.slot, hoseOf a with
    | some h, some z =>
      if !z.all (fun y => s.meterFree h y.meter) then s.refuse .range
      else if (s.point (Slot.side h)).state.saleActive then s.refuse .busy
      else (s.setHose h z).metrologyChanged
    | _, _ => s.refuse .range

/-- R53: the owning point of a meter is sale-active. -/
def State.meterBusy (s : State) (m : Meter) : Bool := (s.owner m).any fun p => (s.point p).state.saleActive

/-- R57: new settings of a meter; a METER notice when they differ from the old. -/
def State.setMeterSettings (s : State) (m : Meter) (x : MeterSettings) : State :=
  let old := s.meterSettings m
  let d := s.metrology.data
  let s := s.changeMetrology { d with meters := d.meters.set m x }
  if x = old then s else s.noteMeter m

/-- R53, R55: SET METER TABLE. -/
def judgeSetMeterTable (b : Byte) (pts : List RawTablePoint) : Owner := fun s =>
  if !s.pins.metrologyClosed then s.refuse .locked
  else match meterOf b, tableOf pts with
    | some m, some t =>
      if s.meterBusy m then s.refuse .busy
      else (s.setMeterSettings m { s.meterSettings m with table := t }).metrologyChanged
    | _, _ => s.refuse .range

/-- R53, R56: SET METER LIMITS. -/
def judgeSetMeterLimits (b phase flow : Byte) : Owner := fun s =>
  if !s.pins.metrologyClosed then s.refuse .locked
  else match meterOf b with
    | some m =>
      if phase = 0 ∨ flow = 0 ∨ 100 < flow.toNat then s.refuse .range
      else if s.meterBusy m then s.refuse .busy
      else (s.setMeterSettings m
        { s.meterSettings m with phaseLimit := phase.toNat, flowLimit := flow.toNat }).metrologyChanged
    | none => s.refuse .range

/-- R59: the result of READ METROLOGY. -/
def State.metrologyReply (s : State) : MetrologySelector → List Byte
  | .summary => s.metrologySummary
  | .slot h => s.metrologySlot h
  | .meter m => s.metrologyMeter m

/-- R59: READ METROLOGY. -/
def judgeReadMetrology (k v : Byte) : Owner := fun s =>
  match selectorOf k v with
  | some x => (s, .done false (s.metrologyReply x))
  | none => s.refuse .range

/-! ### Totals and snapshots -/

/-- R155: the totals SET TOTALS leaves. -/
def Totals.rebase (t : Totals) (volume money : Nat) : Totals :=
  { t with volume := volume, money := money, setCount := t.setCount + 1, blocked := false }

/-- R155: SET TOTALS. The record is queued before the point evaluates, in the order of R155's sentences, so that the last item of R9
fails there and the evaluation at the end of the write starts the sale (DEDUCED, log entry 37). -/
def judgeSetTotals (b : Byte) (volume money : BitVec 64) : Owner := fun s =>
  if !s.pins.metrologyClosed then s.refuse .locked
  else match slotOf b with
    | some h =>
      if Config.totalsModulus ≤ volume.toNat ∨ Config.totalsModulus ≤ money.toNat then s.refuse .range
      else
        let t := s.totals h
        let s := (s.setTotals h (t.rebase volume.toNat money.toNat)).queueRecord (.totals h)
        (if t.blocked then s.evaluateStart (Slot.side h) else s, .onWrite (.totals h) false [])
    | none => s.refuse .range

/-- R156: READ TOTALS. -/
def judgeReadTotals (b : Byte) : Owner := fun s =>
  match slotOf b with
  | some h => (s, .done false (s.totalsReply h))
  | none => s.refuse .range

/-- R156: RECALL. -/
def judgeRecall (b : Byte) : Owner := onPoint b fun p s => (s, .done false (s.recallReply p))

/-! ### Rows -/

/-- SET_HOSE (R54). -/
def execSetHose (tag : Byte) (a : HoseArgs) (closed : Bool) (s : State) : Outcome :=
  .next ((s.readSwitch closed).command tag (.setHose a) (judgeSetHose a))

/-- SET_METER_TABLE (R55). -/
def execSetMeterTable (tag m : Byte) (pts : List RawTablePoint) (closed : Bool) (s : State) : Outcome :=
  .next ((s.readSwitch closed).command tag (.setMeterTable m pts) (judgeSetMeterTable m pts))

/-- SET_METER_LIMITS (R56). -/
def execSetMeterLimits (tag m phase flow : Byte) (closed : Bool) (s : State) : Outcome :=
  .next ((s.readSwitch closed).command tag (.setMeterLimits m phase flow) (judgeSetMeterLimits m phase flow))

/-- READ_METROLOGY (R59). -/
def execReadMetrology (tag k v : Byte) (closed : Bool) (s : State) : Outcome :=
  .next ((s.readSwitch closed).command tag (.readMetrology k v) (judgeReadMetrology k v))

/-- SET_TOTALS (R155). -/
def execSetTotals (tag h : Byte) (volume money : BitVec 64) (closed : Bool) (s : State) : Outcome :=
  .next ((s.readSwitch closed).command tag (.setTotals h volume money) (judgeSetTotals h volume money))

/-- READ_TOTALS (R156). -/
def execReadTotals (tag h : Byte) (s : State) : Outcome := .next (s.command tag (.readTotals h) (judgeReadTotals h))

/-- RECALL (R156). -/
def execRecall (tag p : Byte) (s : State) : Outcome := .next (s.command tag (.recall p) (judgeRecall p))

/-- PULSER_TRANSITION (R35): the level is kept whatever the power state; the decoder runs under R36. -/
def execPulserTransition (m : Meter) (pair : Phases) (s : State) : Outcome :=
  .next (
    let s := s.withPins { s.pins with phases := s.pins.phases.set m pair }
    if s.running then s.transition m pair else s)

/-- WINDOW_END (R39): windows follow one another every 100 ms while the decoders run (R36). -/
def execWindowEnd (s : State) : Outcome :=
  .next (
    if s.running then
      let s := s.advanceTo s.meters.windowDue
      (s.withMeters { s.meters with windowDue := s.meters.windowDue + Config.window }).windowEnd
    else s)

end Sys2Proof.Machine
end

