-- ==== Sys2Proof/Machine/PowerFail.lean ====
section
/-! DEFINITION. The power-fail warning with what every block does at it (R159), the save (R160), its end (R161), the loss of
the supply, and the inputs of the power controller (R158, R162). -/

namespace Sys2Proof.Machine

/-! ### The blocks at the warning -/

/-- R41: a held meter closes its partial window, and the count of any other is discarded. -/
def State.meterFails (s : State) (m : Meter) : State :=
  match (s.meter m).holder with
  | some _ => s.meterWindow false m
  | none => s.setMeter m { s.meter m with count := 0, overrange := false }

/-- R29: a sale ended by the warning is handed to the store, or discarded at 0 cL. -/
def State.saleFails (s : State) (p : Side) : State :=
  match (s.point p).sale with
  | some r => if r.displayed = 0 then s else s.handover p (.power (r.stopped .power).close)
  | none => s

/-- R29: a point after the warning. -/
def Point.failed (x : Point) : Point :=
  { x with state := .closed, entry := none, authDue := none, sale := none, resume := none, suspendDue := none,
           runUp := .stopped, settle := none, runOnDue := none, closing := false, reports := .clear, relay := false,
           testPassed := false, lastEnd := if x.sale.isSome then some .power else x.lastEnd }

/-- R29: a point takes the warning. -/
def State.pointFails (s : State) (p : Side) : State :=
  let s := (s.saleFails p).releaseMeter p
  s.setPoint p (s.point p).failed

/-- R190: the link port takes the warning. -/
def LinkPort.failed (l : LinkPort) : LinkPort :=
  { l with receiver := .hunting, queue := [], waiting := [], finished := [], line := .idle, notices := [], lossDue := none }

/-- R159, R154: the power controller takes the warning; its save writes the state in which the warning arrived, in RESTORE the
field as it was loaded. -/
def PowerController.failed (x : PowerController) (pendingSet : Bool) : PowerController :=
  { x with state := .powerfail, motorDrive := false, wait := none, steadySince := none, stepIndex := 0,
           pendingPrice := x.pendingPrice || pendingSet, save := some .draining, fromWait := false,
           saveField := if x.state = .restore then x.loaded else x.state }

/-- R159: every block takes the warning at once. -/
def State.blocksFail (s : State) : State :=
  let s := s.withPower (s.power.failed s.prices.pending.isSome)
  let s := (Meter.all.foldl State.meterFails s)
  let s := (s.pointFails .a).pointFails .b
  let s := s.withArbiter { s.arbiter with requests := [] }
  let s := (s.withPrices { s.prices with deadlineDue := none }).headsOff.stopCard
  (s.withLink s.link.failed).withStore { s.store with queue := [] }

/-! ### Save -/

/-- R162: the restore wait begins. -/
def State.enterRestore (s : State) (cause : RestoreCause) : State :=
  s.withPower { s.power with
    state := .restore, cause := cause, restoreWaiting := true, save := none, fromWait := false,
    aboveSince := if s.power.supply = .aboveRestore then some s.now else none }

/-- R161, R162: the cause of a restore that follows POWERFAIL without an assertion of the reset input. -/
def PowerController.causeAfterFail (x : PowerController) : RestoreCause := if x.fromWait then x.cause else .brownout

/-- R161: the choice when the save is complete. -/
def State.saveChoice (s : State) : State :=
  let s := s.withPower { s.power with save := some .complete }
  if s.power.resetSeen then s.enterRestore .reset
  else if s.power.supply = .aboveRestore then s.enterRestore s.power.causeAfterFail
  else s

/-- R160, step 4: the power record is written. -/
def State.savePower (s : State) : State :=
  (s.withPower { s.power with save := some .power }).beginWrite (.power ⟨s.power.saveField, true⟩)

/-- R160: a snapshot record is written. -/
def State.saveSnapshot (s : State) (p : Side) (stage : SaveStage) : State :=
  (s.withPower { s.power with save := some stage }).beginWrite (.snapshot p (s.store.snapshots.get p))

/-- R160, step 3. -/
def State.saveB (s : State) : State := if s.store.dirty.b then s.saveSnapshot .b .snapshotB else s.savePower

/-- R160, step 2. -/
def State.saveA (s : State) : State := if s.store.dirty.a then s.saveSnapshot .a .snapshotA else s.saveB

/-- R160: the save after the write it waited for. -/
def State.advanceSave (s : State) : State :=
  match s.power.save with
  | some .draining => s.saveA
  | some .snapshotA => s.saveB
  | some .snapshotB => s.savePower
  | some .power => s.saveChoice
  | some .complete | none => s

/-- R159, R162: POWERFAIL is entered; from the restore wait there is nothing to act on and nothing to write. -/
def State.enterPowerfail (s : State) : State :=
  if s.power.state = .restore ∧ s.power.restoreWaiting then
    (s.withPower { s.power with state := .powerfail, restoreWaiting := false, aboveSince := none, fromWait := true }).saveChoice
  else
    let s := s.blocksFail
    if s.store.inFlight.isSome then s else s.advanceSave

/-- R159: a warning or an assertion enters POWERFAIL from every power state but DARK and POWERFAIL. -/
def State.failPower (s : State) : State :=
  match s.power.state with
  | .dark | .powerfail => s
  | .restore | .standby | .waking | .run | .closing => s.enterPowerfail

/-- The save has ended and the part has stayed in POWERFAIL (R161). -/
def State.saveOver (s : State) : Bool := decide (s.power.state = .powerfail ∧ s.power.save = some .complete)

/-! ### Supply, cell and reset input -/

/-- R158: the backup domain is lost. -/
def PowerController.loseBackup (x : PowerController) : PowerController :=
  { x with clockKept := false, clockValid := false, pendingPrice := false }

/-- R161: the power controller in DARK: what the backup domain keeps, and no more. -/
def PowerController.collapsed (x : PowerController) : PowerController :=
  { PowerController.initial with
    cause := x.cause, clock := x.clock, clockMs := x.clockMs, clockEntered := x.clockEntered, clockValid := x.clockValid,
    clockKept := x.clockKept, pendingPrice := x.pendingPrice, cell := x.cell }

/-- R158, R161: collapse. Volatile state is lost and stands at its values after restore; a write in flight is left torn. -/
def State.collapse (s : State) : State where
  now := s.now
  pins := s.pins
  points := ⟨.afterRestore, .afterRestore⟩
  arbiter := .afterRestore
  metrology := ⟨.blank, false⟩
  meters := ⟨Vector.replicate 6 (.afterRestore ⟨false, false⟩), s.now⟩
  prices := .afterRestore
  heads := ⟨.afterRestore false, .afterRestore false⟩
  card := .afterRestore s.now false
  captures := .empty
  store := .afterRestore s.store.records
  power := if s.power.cell = .low then s.power.collapsed.loseBackup else s.power.collapsed
  link := .afterRestore .baud57600
  pending := s.pending

/-- R175: a dip stops the steady interval, and in the restore wait it breaks the 1.0 s (R162). -/
def State.dip (s : State) : State :=
  s.withPower { s.power with supply := .between, steadySince := none, aboveSince := none }

/-- R158: a recovery. -/
def State.recover (s : State) : State :=
  let s := s.withPower { s.power with supply := .aboveRestore }
  match s.power.state with
  | .dark => s.enterRestore .dark
  | .powerfail => if s.saveOver then s.saveChoice else s
  | .restore => if s.power.restoreWaiting then s.withPower { s.power with aboveSince := some s.now } else s
  | .waking => if s.waitsFor .supplySteady then s.withPower { s.power with steadySince := some s.now } else s
  | .standby | .run | .closing => s

/-! ### Rows -/

/-- R157, R158: the power controller as the supply falls to BELOW_WARN. The warning begins anew what the reset seen mark
counts; a further warning in POWERFAIL changes no more than the reading (R159; log entry 15). -/
def PowerController.warned (x : PowerController) : PowerController :=
  { x with supply := .belowWarn, steadySince := none, aboveSince := none,
           resetSeen := x.resetSeen && decide (x.state = .powerfail) }

/-- POWER_FAIL_WARNING (R158, R159): a fall to BELOW_WARN. In DARK the part does not run. -/
def execPowerFailWarning (s : State) : Outcome :=
  .next (if s.power.state = .dark then s else (s.withPower s.power.warned).failPower)

/-- R159, R161: an assertion of the reset input while the part runs. -/
def State.assertReset (s : State) : State :=
  let s := s.withPower { s.power with resetSeen := true }
  if s.saveOver then s.saveChoice else s.failPower

/-- RESET_ASSERTED (R159). -/
def execResetAsserted (s : State) : Outcome :=
  .next (
    let t := s.withPins { s.pins with resetAsserted := true }
    if s.power.state = .dark ∨ s.pins.resetAsserted then t else t.assertReset)

/-- RESET_RELEASED (R162). -/
def execResetReleased (s : State) : Outcome := .next (s.withPins { s.pins with resetAsserted := false })

/-- SUPPLY_RECOVERY (R158): a rise to ABOVE_RESTORE. -/
def execSupplyRecovery (s : State) : Outcome := .next (if s.power.supply = .aboveRestore then s else s.recover)

/-- SUPPLY_DIP (R158): the reading changes to BETWEEN. A fall from ABOVE_RESTORE is a dip; a rise from BELOW_WARN, which the
monitor hands on too and which has no row of its own, changes the reading alone (log entry 16). -/
def execSupplyDip (s : State) : Outcome :=
  .next (if s.power.supply = .aboveRestore then s.dip else s.withPower { s.power with supply := .between })

/-- COLLAPSE (R158, R161). -/
def execCollapse (s : State) : Outcome := .next (if s.power.state = .dark then s else s.collapse)

/-- BACKUP_CELL_CHANGE (R158, R179). -/
def execBackupCellChange (r : CellReading) (s : State) : Outcome :=
  .next (
    let s := s.withPower { s.power with cell := r }
    if s.power.state = .dark then (if r = .low then s.withPower s.power.loseBackup else s) else s.notePower)

end Sys2Proof.Machine
end

