-- ==== Sys2Proof/Machine/Restore.lean ====
section
/-! DEFINITION. The restore path (R163 to R166, R152, R153), and the completion of a record write (R146, R147). -/

namespace Sys2Proof.Machine

/-! ### Findings -/

/-- R165: a finding is raised as a fault arrival and listed in the summary. -/
def State.find (s : State) (d : Domain) (code : FaultCode) (sev : Severity) (origin : Option Origin) : State :=
  let s := s.arrive d ⟨code, sev, origin, none⟩
  s.withPower { s.power with
    summary := { s.power.summary with findings := s.power.summary.findings ++ [⟨code, d, origin⟩] } }

/-! ### The reset of volatile state -/

/-- R163, R157: the power controller once volatile state is reset; the summary of the restore begins. -/
def PowerController.reset (x : PowerController) : PowerController :=
  { x with restoreWaiting := false, aboveSince := none, stepIndex := 0, wait := none, steadySince := none, aborts := 0,
           motorDrive := false, save := none, fromWait := false, wakeTime := none, sleepTime := none, wakeOnLift := false,
           table := WakeStep.defaultTable, policy := .hold,
           summary := ⟨x.cause, x.clockKept, x.clockValid, .none, none, [], []⟩ }

/-- R163: every volatile item takes its value after restore; the inputs are read now. -/
def State.resetVolatile (s : State) (speed : LineSpeed) : State where
  now := s.now
  pins := s.pins
  points := ⟨.afterRestore, .afterRestore⟩
  arbiter := .afterRestore
  metrology := ⟨.blank, false⟩
  meters := ⟨s.pins.phases.map .afterRestore, s.now + Config.window⟩
  prices := .afterRestore
  heads := ⟨.afterRestore s.pins.warm.a, .afterRestore s.pins.warm.b⟩
  card := .afterRestore s.now s.pins.tamperOpen
  captures := .empty
  store := .afterRestore s.store.records
  power := s.power.reset
  link := .afterRestore speed
  pending := s.pending

/-! ### Checks -/

/-- R164, step 1. -/
def State.checkCause (s : State) : State :=
  if s.power.cause = .brownout then s.find .supply .brownout .note none else s

/-- R58, R152: the metrology record. -/
def State.checkMetrology (s : State) : State :=
  match s.store.records.findMetrology with
  | .valid c => s.withMetrology ⟨c, false⟩
  | .blank => s.withMetrology ⟨.blank, false⟩
  | .damaged =>
    ((s.withMetrology ⟨.blank, true⟩).find .pointA .metrologyLost .halt none).find .pointB .metrologyLost .halt none

/-- R1, R164: the nozzle list of a point as the switches are read. -/
def State.readNozzles (s : State) (p : Side) : State :=
  s.setPoint p { s.point p with
    nozzles := (Side.slots p).filter fun h => (s.hose h).isSome && s.pins.nozzleUp.get h }

/-- R164, step 3: settings taken from their record. -/
def State.install (s : State) (x : Settings) : State :=
  let s := (s.setPoint .a { s.point .a with options := x.points.a }).setPoint .b { s.point .b with options := x.points.b }
  let s := s.withArbiter { s.arbiter with stagger := x.stagger }
  let s := s.withCard { s.card with settings := x.card }
  let s := s.withLink { s.link with timeout := x.linkTimeout }
  s.withPower { s.power.reschedule x.wakeTime x.sleepTime x.wakeOnLift with table := x.table, policy := x.policy }

/-- R152: the settings record. -/
def State.checkSettings (s : State) : State :=
  match s.store.records.findSettings with
  | .valid c => s.install c
  | .blank => s.install .default
  | .damaged => (s.install .default).find .supply .settingsLost .fault none

/-- R78: the price record. -/
def State.checkPrices (s : State) : State :=
  match s.store.records.findPrice with
  | .valid c => s.withPrices { s.prices with active := c.active, generation := c.generation }
  | .blank => s.withPrices { s.prices with active := PriceSet.unset, generation := 0 }
  | .damaged =>
    (s.withPrices { s.prices with active := PriceSet.unset, generation := 0 }).find .supply .pricesLost .fault none

/-- R152: the totals record of a slot. -/
def State.checkTotals (s : State) (h : Slot) : State :=
  match s.store.records.findTotals h with
  | .valid c => s.setTotals h c
  | .blank => s.setTotals h .blank
  | .damaged =>
    (s.setTotals h { Totals.blank with blocked := true }).find (Side.domain (Slot.side h)) .totalsLost .fault
      (some (.slot h))

/-- The sale record of a snapshot, for ENDED and POWER (R151). -/
def Snapshot.sale? : Snapshot → Option SaleRecord
  | .ended r | .power r => Option.some r
  | .none | .damaged => Option.none

/-- R1: the largest last settled sale number among the valid totals records of the point's slots. -/
def State.settledNumber (s : State) (p : Side) : BitVec 16 :=
  (Side.slots p).foldl (fun n h => match s.store.records.findTotals h with
    | .valid t => if n < t.last then t.last else n
    | _ => n) 0

/-- R1: the restored last sale number, given the snapshot found. -/
def State.restoredNumber (s : State) (p : Side) (x : Snapshot) : BitVec 16 :=
  match x.sale? with
  | some r => r.number
  | none => s.settledNumber p

/-- R98: the last-sale figures a snapshot gives. -/
def Snapshot.lastSale : Snapshot → LastSale
  | .ended r | .power r => .figures r.displayed r.money r.unverified
  | .none => .none
  | .damaged => .damaged

/-- R152, R98, R1: the working snapshot of a point, its head's last sale and its last sale number. -/
def State.loadSnapshot (s : State) (p : Side) (x : Snapshot) : State :=
  let s := s.withStore { s.store with snapshots := s.store.snapshots.set p x, dirty := s.store.dirty.set p false }
  let s := s.setHead p { s.head p with lastSale := x.lastSale }
  s.setPoint p { s.point p with lastNumber := s.restoredNumber p x }

/-- R152: the snapshot record of a point. -/
def State.checkSnapshot (s : State) (p : Side) : State :=
  match s.store.records.findSnapshot p with
  | .valid x => s.loadSnapshot p x
  | .blank => s.loadSnapshot p .none
  | .damaged => (s.loadSnapshot p .damaged).find (Side.domain p) .snapshotLost .fault none

/-- The loaded power field is set, and with it the working field. -/
def State.loadField (s : State) (x : PowerState) : State :=
  s.withPower { s.power with loaded := x, field := x }

/-- R164, step 7: the power record. -/
def State.checkPower (s : State) : State :=
  match s.store.records.findPower with
  | .valid c => if c.saved then s.loadField c.field else (s.loadField .standby).find .supply .saveIncomplete .fault none
  | .blank => s.loadField .standby
  | .damaged => (s.loadField .standby).find .supply .saveIncomplete .fault none

/-- R164, step 8: the clock is judged, and its kept mark set again. -/
def State.checkClock (s : State) : State :=
  let kept := s.power.clockKept
  let s := if kept then s
    else (s.withPower { s.power with clock := 0, clockMs := 0, clockEntered := false, clockValid := false }).find .supply
      .clockLost .note none
  s.withPower { s.power with clockKept := true,
                             summary := { s.power.summary with clockKept := kept, clockValid := s.power.clockValid } }

/-- R164: the checks in their order. -/
def State.checkRecords (s : State) : State :=
  let s := s.checkCause.checkMetrology
  let s := ((s.readNozzles .a).readNozzles .b).checkSettings.checkPrices
  let s := Slot.all.foldl State.checkTotals s
  ((s.checkSnapshot .a).checkSnapshot .b).checkPower.checkClock

/-! ### Settlement and summary -/

/-- R153: the snapshot of a point is to be settled. -/
def State.unsettled (s : State) (p : Side) : Bool :=
  (s.store.snapshots.get p).sale?.any fun r => decide (r.displayed ≠ 0) && (s.totals r.hose).settles r

/-- R153: a settled POWER snapshot is pushed onto its point's stack with the recovered mark. -/
def State.pushRecovered (s : State) (p : Side) (r : SaleRecord) : State :=
  let s := s.setPoint p { s.point p with stack := (s.point p).stack ++ [{ r with recovered := true }] }
  (s.raise (.sale p)).withPower { s.power with
    summary := { s.power.summary with recovered := s.power.summary.recovered ++ [⟨p, r.number⟩] } }

/-- R153: the settlement of a point's snapshot. -/
def State.settleSnapshot (s : State) (p : Side) : State :=
  if s.unsettled p then
    match s.store.snapshots.get p with
    | .ended r => s.settle r
    | .power r => (s.settle r).pushRecovered p r
    | .none | .damaged => s
  else s

/-- R165: what the summary says of the pending price set. -/
def PowerController.pendingFound (x : PowerController) : PendingFound :=
  if x.pendingPrice then .discarded else if x.summary.clockKept then .none else .notKnown

/-- R165: the summary is completed, and the POWER and PRICE notices are sent. -/
def State.summarize (s : State) : State :=
  let found := s.power.pendingFound
  let s := s.withPower { s.power with summary := { s.power.summary with pendingSet := found } }
  let s := if found = .discarded then
      s.withPrices { s.prices with lastOutcome := some ⟨.restoreDiscard, s.prices.generation⟩ } else s
  s.notePower.raise .price

/-- R166: the next state by policy and loaded field. -/
def PowerController.nextState (x : PowerController) : PowerState :=
  match x.policy, x.loaded with
  | .resume, .run | .resume, .waking => .waking
  | _, _ => .standby

/-- R166: the choice is recorded, the reset seen mark and the pending-price mark clear. -/
def PowerController.chosen (x : PowerController) : PowerController :=
  { x with summary := { x.summary with next := some x.nextState }, resetSeen := false, pendingPrice := false }

/-- R166: the part leaves RESTORE when the write queue has drained; the link-loss timer starts. -/
def State.leaveRestore (s : State) : State :=
  if s.power.state = .restore ∧ ¬ s.power.restoreWaiting ∧ s.store.queue = [] ∧ s.store.inFlight = none then
    let s := s.withPower s.power.chosen
    (if s.power.nextState = .waking then s.enterWaking else s.enterStandby).restartLoss
  else s

/-- R129: a housing found open when the watch begins is a tamper event. -/
def State.watchTamper (s : State) : State := if s.pins.tamperOpen then s.tamperEvent else s

/-- R163 to R166: the restore path once its wait is over. -/
def State.restore (s : State) (speed : LineSpeed) : State :=
  let s := (s.resetVolatile speed).watchTamper.checkRecords
  ((s.settleSnapshot .a).settleSnapshot .b).summarize.leaveRestore

/-! ### Completed writes -/

/-- R147: the reply waits for the completed write of the record. -/
def WaitingReply.answeredBy (w : WaitingReply) (r : RecordId) : Bool :=
  match w.waits with
  | .write q covered _ => decide (q = r) && covered
  | .owner => false

/-- R147: after a completed write, the next write of the record covers every reply still waiting for it. -/
def WaitingReply.cover (w : WaitingReply) (r : RecordId) : WaitingReply :=
  match w.waits with
  | .write q c payload => if q = r then { w with waits := .write q true payload } else { w with waits := .write q c payload }
  | .owner => w

/-- R147: the DONE of a waiting reply. -/
def WaitingReply.frame (w : WaitingReply) : Message :=
  match w.waits with
  | .write _ _ payload => ⟨w.kind + 0x80, w.tag, payload, []⟩
  | .owner => ⟨w.kind + 0x80, w.tag, [], []⟩

/-- R147, R187: the replies that a completed write answers become FINISHED in the order of taking. -/
def State.answerWrite (s : State) (r : RecordId) : State :=
  let done := s.link.waiting.filter fun w => w.answeredBy r
  let rest := (s.link.waiting.filter fun w => !w.answeredBy r).map fun w => w.cover r
  done.foldl (fun s w => s.finish w.frame) (s.withLink { s.link with waiting := rest })

/-- R146, R151, R58: the record holds the content taken; a snapshot's dirty flag clears unless a later handover overtook the
write, and a metrology write clears the damaged mark. -/
def State.sealWrite (s : State) (w : InFlight) : State :=
  let s := s.withStore { s.store with records := s.store.records.seal w.content, inFlight := none }
  match w.content with
  | .snapshot p _ => if w.stale then s else s.withStore { s.store with dirty := s.store.dirty.set p false }
  | .metrology _ => s.withMetrology { s.metrology with damaged := false }
  | _ => s

/-- R9: the completed write of a totals record makes its point evaluate. -/
def State.afterWrite (s : State) : RecordId → State
  | .totals h => s.evaluateStart (Slot.side h)
  | _ => s

/-- R146 to R148: a write has completed. The replies that waited for it finish before the point of a totals record evaluates,
and before the notices of the state entered where the write ends RESTORE; R147, R166 and R187 give no order (DESIGN CHOICE, log
entry 31). -/
def State.completeWrite (s : State) (w : InFlight) : State :=
  let s := s.sealWrite w
  if s.power.state = .powerfail then s.advanceSave
  else (((s.answerWrite w.content.record).beginNext).afterWrite w.content.record).leaveRestore

/-! ### Rows -/

/-- R180: the speed the strap gives. -/
def speedOf (strapHigh : Bool) : LineSpeed := if strapHigh then .baud115200 else .baud57600

/-- RESTORE_WAIT_COMPLETE (R162): the supply has read ABOVE_RESTORE for 1.0 s and the reset input is released. -/
def execRestoreWaitComplete (strapHigh : Bool) (s : State) : Outcome :=
  .next (match s.power.aboveSince with
    | some t =>
      if s.power.restoreWaiting ∧ ¬ s.pins.resetAsserted then
        (s.advanceTo (t + Config.restoreWait)).restore (speedOf strapHigh)
      else s
    | none => s)

/-- RECORD_WRITE_COMPLETE (R146). -/
def execRecordWriteComplete (s : State) : Outcome :=
  .next (match s.store.inFlight with
    | some w => (s.advanceTo w.due).completeWrite w
    | none => s)

end Sys2Proof.Machine
end

