-- ==== Sys2Proof/Machine/Link.lean ====
section
/-! DEFINITION. The link port (chapter 10): the receiver, good and bad frames, the interpreter that hands each command to its
owner, the outbound line, link loss, and the port's own commands. -/

namespace Sys2Proof.Machine

/-! ### The port's own commands -/

/-- R191: IDENTIFY. -/
def judgeIdentify : Owner := fun s => (s, .done false s.identity)

/-- R191: READ LINK. -/
def judgeReadLink : Owner := fun s => (s, .done false s.linkContent)

/-- R189: the link-loss timer restarts in the power states in which it runs. -/
def State.retimeLoss (s : State) : State := if s.lossTimed then s.restartLoss else s

/-- R189: SET LINK TIMEOUT. -/
def judgeSetLinkTimeout (x : Byte) : Owner := fun s =>
  (s.withLink { s.link with timeout := linkTimeoutOf x.toNat }).retimeLoss.settingsChanged
    (decide (linkTimeoutOf x.toNat ≠ x.toNat))

/-! ### Interpreter -/

/-- R184, step 3: the owner of each command. -/
def ownerOf : Command → Owner
  | .identify => judgeIdentify
  | .readLink => judgeReadLink
  | .setLinkTimeout x => judgeSetLinkTimeout x
  | .authorize a => judgeAuthorize a
  | .cancel p => judgeCancel p
  | .stop p => judgeStop p
  | .suspend p => judgeSuspend p
  | .resume p u => judgeResume p u
  | .openPoint p => judgeOpenPoint p
  | .closePoint p => judgeClosePoint p
  | .restartPoint p => judgeRestartPoint p
  | .clearSale p n => judgeClearSale p n
  | .readSale p n => judgeReadSale p n
  | .setPointOptions a => judgeSetPointOptions a
  | .setHose a => judgeSetHose a
  | .setMeterTable m pts => judgeSetMeterTable m pts
  | .setMeterLimits m p f => judgeSetMeterLimits m p f
  | .readMetrology k v => judgeReadMetrology k v
  | .priceChange a => judgePriceChange a
  | .cancelPriceChange => judgeCancelPriceChange
  | .readPrices => judgeReadPrices
  | .readHead p => judgeReadHead p
  | .cardMode a => judgeCardMode a
  | .cardRestart => judgeCardRestart
  | .cardStop => judgeCardStop
  | .cardTake => judgeCardTake
  | .cardSend c => judgeCardSend c
  | .readCard => judgeReadCard
  | .readFault d => judgeReadFault d
  | .clearFault d t => judgeClearFault d t
  | .setTotals h v m => judgeSetTotals h v m
  | .readTotals h => judgeReadTotals h
  | .recall p => judgeRecall p
  | .wake => judgeWake
  | .sleep => judgeSleep
  | .setClock v => judgeSetClock v
  | .setSchedule w sl f => judgeSetSchedule w sl f
  | .setWakeSequence t => judgeSetWakeSequence t
  | .setRestorePolicy x => judgeSetRestorePolicy x
  | .readPower => judgeReadPower

/-- R184: who judges a frame: the interpreter refuses what names no command or does not fit, and hands on the rest. -/
def ownerOfFrame (f : Frame) : Owner :=
  match judge f.kind f.payload with
  | .unknown => fun s => s.refuse .unknown
  | .length => fun s => s.refuse .length
  | .command c => ownerOf c

/-- R184: the interpreter takes frames while a slot is free and the queue is not empty; `n` bounds how many it takes. -/
def State.interpret (s : State) : Nat → State
  | 0 => s
  | n + 1 =>
    match s.link.queue with
    | [] => s
    | f :: rest =>
      if 0 < s.link.free then
        ((s.withLink { s.link with queue := rest }).take f.kind f.tag (ownerOfFrame f)).interpret n
      else s

/-! ### Frames received -/

/-- R188: a good frame restores a LOST link. -/
def State.restoreLink (s : State) : State :=
  let s := (s.withLink { s.link with up := true }).retimeLoss.raise .link
  (s.evaluateStart .a).evaluateStart .b

/-- R182: a good frame restores the link, or restarts a running link-loss timer. -/
def State.hearHost (s : State) : State :=
  if s.link.up then (if s.link.lossDue.isSome then s.restartLoss else s) else s.restoreLink

/-- R182, R183, R184: a good frame. -/
def State.goodFrame (s : State) (f : Frame) : State :=
  let s := ((s.withLink { s.link with receiver := .hunting }).hearHost).enqueue f
  s.interpret s.link.queue.length

/-- R181: a bad frame. -/
def State.badFrame (s : State) (cause : BadCause) : State :=
  (s.withLink { s.link with receiver := .hunting, badCount := bump s.link.badCount, lastBad := some cause }).raise .link

/-- R181: a frame whose LEN byte is above 250 is bad, and any other whose check code agrees is good. -/
def State.frameReceived (s : State) (f : Frame) : State :=
  if f.payload.length ≤ Config.contentLimit then s.goodFrame f else s.badFrame .length

/-! ### Characters -/

/-- R181: the frame whose bytes after the sync, up to the second check byte, these are. -/
def frameOf : List Byte → Option Frame
  | len :: kind :: tag :: rest =>
    if crcBytes (len :: kind :: tag :: rest.take len.toNat) = rest.drop len.toNat
    then some ⟨kind, tag, rest.take len.toNat⟩ else none
  | _ => none

/-- R181: the frame is complete: LEN, KIND, TAG, LEN bytes and two check bytes. -/
def frameComplete (bytes : List Byte) : Bool :=
  match bytes with
  | len :: _ => decide (bytes.length = len.toNat + 5)
  | [] => false

/-- R181: a character IN_FRAME. -/
def State.frameByte (s : State) (bytes : List Byte) (b : Byte) : State :=
  let all := bytes ++ [b]
  if bytes = [] ∧ Config.contentLimit < b.toNat then s.badFrame .length
  else if frameComplete all then
    match frameOf all with
    | some f => s.goodFrame f
    | none => s.badFrame .check
  else s.withLink { s.link with receiver := .inFrame all s.now }

/-- R181: a silence longer than 10 ms has ended the frame in reception before this character. -/
def State.checkSilence (s : State) : State :=
  match s.link.receiver with
  | .inFrame _ last => if last + Config.interCharacterGap < s.now then s.badFrame .gap else s
  | .hunting => s

/-- R181: a received character. Its line error is met before its LEN value or the check code it completes (log entry 30). -/
def State.hostCharacter (s : State) (b : Byte) (lineError : Bool) : State :=
  match s.link.receiver with
  | .hunting => if b = 0xB7 ∧ ¬ lineError then s.withLink { s.link with receiver := .inFrame [] s.now } else s
  | .inFrame bytes _ => if lineError then s.badFrame .lineError else s.frameByte bytes b

/-! ### Outbound line -/

/-- R184, R187: the reply on the line has been sent and its slot is free: the interpreter takes first, then the arbiter chooses
(log entry 13). -/
def State.replySent (s : State) : State :=
  let s := s.withLink { s.link with line := .choosing }
  (s.interpret s.link.queue.length).chooseFrame

/-- R91: the notice that carried the superseded mark of the price table has been sent. -/
def State.markReported (s : State) (carries : Bool) : State :=
  if carries then s.withPrices { s.prices with superseded := false } else s

/-- R186, R187: the notice on the line has been sent; a raise kept for its subject takes the slot anew. -/
def State.noticeSent (s : State) (n : Subject) (again carries : Bool) : State :=
  let s := s.markReported carries
  (s.withLink { s.link with line := .choosing,
                            notices := if again then s.link.notices ++ [⟨n, false⟩] else s.link.notices }).chooseFrame

/-! ### Link loss -/

/-- R188: the link becomes LOST. The rule gives the POINT notices of the voids and the LINK notice no order; the model raises the
POINT notices first (DESIGN CHOICE, log entry 38). -/
def State.loseLink (s : State) : State :=
  let s := s.withLink { s.link with lossDue := none, up := false }
  ((s.void .a .link).void .b .link).raise .link

/-! ### Rows -/

/-- IDENTIFY (R191). -/
def execIdentify (tag : Byte) (s : State) : Outcome := .next (s.command tag .identify judgeIdentify)

/-- READ LINK (R191). -/
def execReadLink (tag : Byte) (s : State) : Outcome := .next (s.command tag .readLink judgeReadLink)

/-- SET LINK TIMEOUT (R189). -/
def execSetLinkTimeout (tag x : Byte) (s : State) : Outcome :=
  .next (s.command tag (.setLinkTimeout x) (judgeSetLinkTimeout x))

/-- GOOD_FRAME (R182): while the link does not run, no frame is received (R190). -/
def execGoodFrame (kind tag : Byte) (payload : List Byte) (closed : Bool) (s : State) : Outcome :=
  .next (
    let s := s.readSwitch closed
    if s.running then s.frameReceived ⟨kind, tag, payload⟩ else s)

/-- BAD_FRAME (R181). -/
def execBadFrame (cause : BadCause) (s : State) : Outcome := .next (if s.running then s.badFrame cause else s)

/-- INTER_CHARACTER_GAP (R181): more than 10 ms since the last character of a frame in reception. -/
def execInterCharacterGap (s : State) : Outcome :=
  .next (match s.link.receiver with
    | .inFrame _ last => (s.advanceTo (last + Config.interCharacterGap + 1)).badFrame .gap
    | .hunting => s)

/-- HOST_CHARACTER_RECEIVED (R181). -/
def execHostCharacterReceived (b : Byte) (lineError : Bool) (s : State) : Outcome :=
  .next (if s.running then s.checkSilence.hostCharacter b lineError else s)

/-- OUTBOUND_FRAME_SENT (R184, R186, R187). -/
def execOutboundFrameSent (closed : Bool) (s : State) : Outcome :=
  .next (
    let s := s.readSwitch closed
    match s.link.line with
    | .reply _ => s.replySent
    | .notice n _ again carries => s.noticeSent n again carries
    | .idle | .choosing => s)

/-- R188: the link-loss timer expires. The link becomes LOST if it is UP, and the timer is not restarted. -/
def State.expireLoss (s : State) : State :=
  if s.link.up then s.loseLink else s.withLink { s.link with lossDue := none }

/-- LINK_LOSS_TIMEOUT (R188). -/
def execLinkLossTimeout (s : State) : Outcome :=
  .next (match s.link.lossDue with
    | some t => (s.advanceTo t).expireLoss
    | none => s)

end Sys2Proof.Machine
end

