-- ==== Sys2Proof/Machine/Dispatch.lean ====
section
/-! DEFINITION. The meaning of each row of spec/opcode_table.json. -/

namespace Sys2Proof.Machine

def exec (i : Instr) (s : State) : Host.Outcome State Fault Refusal :=
  match i with
  | .identify tag => Sys2Proof.Machine.execIdentify tag s
  | .readLink tag => Sys2Proof.Machine.execReadLink tag s
  | .setLinkTimeout tag seconds => Sys2Proof.Machine.execSetLinkTimeout tag seconds s
  | .authorize tag args => Sys2Proof.Machine.execAuthorize tag args s
  | .cancel tag point => Sys2Proof.Machine.execCancel tag point s
  | .stop tag point => Sys2Proof.Machine.execStop tag point s
  | .suspend tag point => Sys2Proof.Machine.execSuspend tag point s
  | .resume tag point unlink => Sys2Proof.Machine.execResume tag point unlink s
  | .openPoint tag point => Sys2Proof.Machine.execOpenPoint tag point s
  | .closePoint tag point => Sys2Proof.Machine.execClosePoint tag point s
  | .restartPoint tag point => Sys2Proof.Machine.execRestartPoint tag point s
  | .clearSale tag point number => Sys2Proof.Machine.execClearSale tag point number s
  | .readSale tag point selector => Sys2Proof.Machine.execReadSale tag point selector s
  | .setPointOptions tag args => Sys2Proof.Machine.execSetPointOptions tag args s
  | .setHose tag args closed => Sys2Proof.Machine.execSetHose tag args closed s
  | .setMeterTable tag meter points closed => Sys2Proof.Machine.execSetMeterTable tag meter points closed s
  | .setMeterLimits tag meter phaseLimit flowLimit closed => Sys2Proof.Machine.execSetMeterLimits tag meter phaseLimit flowLimit closed s
  | .readMetrology tag kind value closed => Sys2Proof.Machine.execReadMetrology tag kind value closed s
  | .priceChange tag args => Sys2Proof.Machine.execPriceChange tag args s
  | .cancelPriceChange tag => Sys2Proof.Machine.execCancelPriceChange tag s
  | .readPrices tag => Sys2Proof.Machine.execReadPrices tag s
  | .readHead tag head => Sys2Proof.Machine.execReadHead tag head s
  | .cardMode tag args => Sys2Proof.Machine.execCardMode tag args s
  | .cardRestart tag => Sys2Proof.Machine.execCardRestart tag s
  | .cardStop tag => Sys2Proof.Machine.execCardStop tag s
  | .cardTake tag => Sys2Proof.Machine.execCardTake tag s
  | .cardSend tag content => Sys2Proof.Machine.execCardSend tag content s
  | .readCard tag => Sys2Proof.Machine.execReadCard tag s
  | .readFault tag domain => Sys2Proof.Machine.execReadFault tag domain s
  | .clearFault tag domain token => Sys2Proof.Machine.execClearFault tag domain token s
  | .setTotals tag slot volume money closed => Sys2Proof.Machine.execSetTotals tag slot volume money closed s
  | .readTotals tag slot => Sys2Proof.Machine.execReadTotals tag slot s
  | .recall tag point => Sys2Proof.Machine.execRecall tag point s
  | .wake tag => Sys2Proof.Machine.execWake tag s
  | .sleep tag => Sys2Proof.Machine.execSleep tag s
  | .setClock tag value => Sys2Proof.Machine.execSetClock tag value s
  | .setSchedule tag wake sleep onLift => Sys2Proof.Machine.execSetSchedule tag wake sleep onLift s
  | .setWakeSequence tag steps => Sys2Proof.Machine.execSetWakeSequence tag steps s
  | .setRestorePolicy tag policy => Sys2Proof.Machine.execSetRestorePolicy tag policy s
  | .readPower tag => Sys2Proof.Machine.execReadPower tag s
  | .goodFrame kind tag payload closed => Sys2Proof.Machine.execGoodFrame kind tag payload closed s
  | .badFrame cause => Sys2Proof.Machine.execBadFrame cause s
  | .interCharacterGap => Sys2Proof.Machine.execInterCharacterGap s
  | .outboundFrameSent closed => Sys2Proof.Machine.execOutboundFrameSent closed s
  | .linkLossTimeout => Sys2Proof.Machine.execLinkLossTimeout s
  | .nozzleLift slot => Sys2Proof.Machine.execNozzleLift slot s
  | .nozzleHang slot => Sys2Proof.Machine.execNozzleHang slot s
  | .authorizationTimerExpiry point => Sys2Proof.Machine.execAuthorizationTimerExpiry point s
  | .staggerIntervalExpiry => Sys2Proof.Machine.execStaggerIntervalExpiry s
  | .runUpExpiry point => Sys2Proof.Machine.execRunUpExpiry point s
  | .suspendTimerExpiry point => Sys2Proof.Machine.execSuspendTimerExpiry point s
  | .settleIntervalExpiry point => Sys2Proof.Machine.execSettleIntervalExpiry point s
  | .runOnTimerExpiry point => Sys2Proof.Machine.execRunOnTimerExpiry point s
  | .pulserTransition meter pair => Sys2Proof.Machine.execPulserTransition meter pair s
  | .windowEnd => Sys2Proof.Machine.execWindowEnd s
  | .deadlineTimerExpiry => Sys2Proof.Machine.execDeadlineTimerExpiry s
  | .headRefresh head echo => Sys2Proof.Machine.execHeadRefresh head echo s
  | .segmentTestAllOnEnd head => Sys2Proof.Machine.execSegmentTestAllOnEnd head s
  | .segmentTestAllOffEnd head => Sys2Proof.Machine.execSegmentTestAllOffEnd head s
  | .warmInputChange head warm => Sys2Proof.Machine.execWarmInputChange head warm s
  | .cardByteReceived b => Sys2Proof.Machine.execCardByteReceived b s
  | .cardLineError => Sys2Proof.Machine.execCardLineError s
  | .cardBreak => Sys2Proof.Machine.execCardBreak s
  | .cardGapExpiry => Sys2Proof.Machine.execCardGapExpiry s
  | .readyTimerExpiry => Sys2Proof.Machine.execReadyTimerExpiry s
  | .restartOffDelayElapsed => Sys2Proof.Machine.execRestartOffDelayElapsed s
  | .cardFrameSent => Sys2Proof.Machine.execCardFrameSent s
  | .cardTxGapElapsed => Sys2Proof.Machine.execCardTxGapElapsed s
  | .tamper => Sys2Proof.Machine.execTamper s
  | .recordWriteComplete => Sys2Proof.Machine.execRecordWriteComplete s
  | .powerFailWarning => Sys2Proof.Machine.execPowerFailWarning s
  | .resetAsserted => Sys2Proof.Machine.execResetAsserted s
  | .resetReleased => Sys2Proof.Machine.execResetReleased s
  | .supplyRecovery => Sys2Proof.Machine.execSupplyRecovery s
  | .supplyDip => Sys2Proof.Machine.execSupplyDip s
  | .collapse => Sys2Proof.Machine.execCollapse s
  | .backupCellChange reading => Sys2Proof.Machine.execBackupCellChange reading s
  | .restoreWaitComplete strapHigh => Sys2Proof.Machine.execRestoreWaitComplete strapHigh s
  | .scheduledWakeTime => Sys2Proof.Machine.execScheduledWakeTime s
  | .scheduledSleepTime => Sys2Proof.Machine.execScheduledSleepTime s
  | .wakeWaitTimerExpiry => Sys2Proof.Machine.execWakeWaitTimerExpiry s
  | .steadyIntervalComplete => Sys2Proof.Machine.execSteadyIntervalComplete s
  | .hostCharacterReceived b e => Sys2Proof.Machine.execHostCharacterReceived b e s
  | .tamperInputClosed => Sys2Proof.Machine.execTamperInputClosed s

end Sys2Proof.Machine
end

