-- ==== Sys2Proof/Machine/Step.lean ====
section
/-! DEFINITION. One step of the block: the row at the front of the queue is taken; an idle block lets one millisecond pass. -/

namespace Sys2Proof.Machine

/-- One millisecond with no row to take (DESIGN CHOICE, log entry 2). -/
def State.tick (s : State) : State := s.advanceTo (s.now + 1)

/-- The row at the front of the queue is executed on the state with the queue's rest. -/
def step (s : State) : Host.Outcome State Fault Refusal :=
  match s.pending with
  | [] => .next s.tick
  | c :: rest => exec c (s.withPending rest)

/-- The command a word spells is put at the front of the queue. No word spells one (Decode.lean). -/
def State.withFetchWord (s : State) (nbits w : Nat) : State :=
  match Sys2Proof.decodeTableWord nbits w with
  | some c => s.withPending (c :: s.pending)
  | none => s

end Sys2Proof.Machine
end

