-- ==== Sys2Proof/Safety.lean ====
section
/-! DEFINITION. The terms in which the claims speak: the blocks a row may change, the reply a command gives, and the
properties that every step keeps. -/

namespace Sys2Proof.Machine

/-! ### Frames -/

/-- The parts of State, block by block (00_scope.md). -/
inductive Block where
  | now
  | pins
  | points
  | arbiter
  | metrology
  | meters
  | prices
  | heads
  | card
  | captures
  | store
  | power
  | link
  | pending
  deriving DecidableEq, Repr

/-- Two states agree in a part. -/
def State.agrees (s t : State) : Block → Prop
  | .now => t.now = s.now
  | .pins => t.pins = s.pins
  | .points => t.points = s.points
  | .arbiter => t.arbiter = s.arbiter
  | .metrology => t.metrology = s.metrology
  | .meters => t.meters = s.meters
  | .prices => t.prices = s.prices
  | .heads => t.heads = s.heads
  | .card => t.card = s.card
  | .captures => t.captures = s.captures
  | .store => t.store = s.store
  | .power => t.power = s.power
  | .link => t.link = s.link
  | .pending => t.pending = s.pending

/-- `t` differs from `s` at most in the parts named. -/
def State.changesOnly (s t : State) (parts : List Block) : Prop := ∀ b, b ∉ parts → s.agrees t b

/-- The other side of the dispenser. -/
def Side.other : Side → Side
  | .a => .b
  | .b => .a

/-! ### Replies -/

/-- The interpreter can take a command: the link runs (R190) and a reply slot is free (R184). -/
abbrev State.takes (s : State) : Prop := s.running = true ∧ 0 < s.link.free

/-- R184: a reply is FINISHED, or already on the line. -/
abbrev State.replied (s : State) (f : Message) : Prop := f ∈ s.link.finished ∨ s.link.line = .reply f

/-- R147, R184: a reply waits for a write of a record and will carry this payload. -/
def State.awaits (s : State) (kind tag : Byte) (r : RecordId) (payload : List Byte) : Prop :=
  ∃ covered, ⟨kind, tag, .write r covered payload⟩ ∈ s.link.waiting

/-- R186: the subjects whose notice slot is occupied. -/
def LinkPort.subjects (l : LinkPort) : List Subject :=
  l.notices.map QueuedNotice.subject ++ (match l.line with
    | .notice n _ _ _ => [n]
    | _ => [])

/-- R186: the notice slot of a subject is occupied: its notice is queued or on the line. -/
abbrev State.noted (s : State) (n : Subject) : Prop := n ∈ s.link.subjects

/-- Of the link port only the outbound side differs (reply slots, notice slots, the frame on the line), and nothing that
waited to be sent is lost there: the replies that wait for a write, the finished replies, the notices. -/
def State.linkOutputs (s t : State) : Prop :=
  t.link = { s.link with waiting := t.link.waiting, finished := t.link.finished, line := t.link.line,
                         notices := t.link.notices } ∧
  (∀ w ∈ s.link.waiting, w.waits ≠ .owner → w ∈ t.link.waiting) ∧
  (∀ f, s.replied f → t.replied f) ∧ (∀ n, s.noted n → t.noted n)

/-- The frame of most rows: outside the parts named, only the outbound side of the link differs. -/
def State.touches (s t : State) (parts : List Block) : Prop := s.changesOnly t (.link :: parts) ∧ s.linkOutputs t

/-- R146: a record waits in the write queue, or its write in flight carries the owner's working content. -/
def State.recording (s : State) (r : RecordId) : Prop :=
  r ∈ s.store.queue ∨ ∃ w, s.store.inFlight = some w ∧ w.content = s.content r

/-- R184, R185: a row is answered with this reply, and changes nothing else than the outbound side of the link. -/
def State.answersOnly (s : State) (i : Instr) (f : Message) : Prop :=
  ∃ t, exec i s = .next t ∧ t.replied f ∧ s.touches t []

/-- R192: the DONE reply to a command. -/
def doneFrame (c : Command) (tag : Byte) (adjusted : Bool) (result : List Byte) : Message :=
  ⟨Command.kind c + 0x80, tag, donePayload adjusted result, []⟩

/-- R192: the REFUSED reply to a command, for every reason but UNKNOWN and STALE. -/
def refusedFrame (c : Command) (tag : Byte) (why : Reason) : Message :=
  ⟨Command.kind c + 0x80, tag, [2, why.code], []⟩

/-- R187, R186, R91: of a link's queued notices the oldest one of the first class has left the queue for the line, with its
content as it is now. -/
abbrev State.startsNotice (t : State) (l : LinkPort) : Prop :=
  ∃ m ∈ l.notices, (∀ k ∈ l.notices, m.subject.rank ≤ k.subject.rank) ∧
    (l.notices.filter fun k => decide (k.subject.rank = m.subject.rank)).head? = some m ∧
    t.link = { l with
      line := .notice m.subject (t.noticeFrame m) false (decide (m.subject = .price) && t.prices.superseded),
      notices := l.notices.filter fun k => decide (k.subject ≠ m.subject) }

/-- R194: the code of an end reason, FF when absent. -/
def endReasonByte (x : Option EndReason) : Byte :=
  x.elim 0xFF fun r =>
    byte ([EndReason.nozzle, .hostStop, .preset, .capacity, .fault, .suspendLimit, .power].idxOf r)

/-- R194: the fault codes, counted on from the first of their domain: 01, 21 and 41 hex. -/
def faultCodeByte (c : FaultCode) : Byte :=
  let point := [FaultCode.phaseError, .nozzleConflict, .runOnLimit, .displayMismatch, .rateOverrange, .meterTaint, .backflow,
    .capacitySaturated, .snapshotLost, .totalsLost, .unattributedFlow, .displayFault, .metrologyLost]
  let card := [FaultCode.cardBreak, .lineError, .frameCheck, .ringOverflow, .checkRun, .readyTimeout, .tamper]
  let supply := [FaultCode.brownout, .clockLost, .sequenceTimeout, .settingsLost, .pricesLost, .saveIncomplete,
    .sequenceAbort, .supplyUnsteady]
  byte (if c ∈ point then 0x01 + point.idxOf c else if c ∈ card then 0x21 + card.idxOf c else 0x41 + supply.idxOf c)

/-- R194: origin kind and value; of no origin two zeros (log entry 6). -/
def originPair : Option Origin → List Byte
  | none => [0, 0]
  | some (.meter m) => [1, byte m.val]
  | some (.slot h) => [2, byte h.val]
  | some (.head p) => [3, if p = .a then 0 else 1]
  | some (.step n) => [4, byte n]

/-- R53: a command that reads the metrology switch is answered and changes no more than the level of the switch. -/
abbrev State.answersSwitched (s : State) (i : Instr) (f : Message) : Prop :=
  ∃ t, exec i s = .next t ∧ t.replied f ∧ s.touches t [.pins]

/-- The rows of spec/opcode_table.json that are commands of the host, with tag, command and, where the row carries it, the
level of the metrology switch. -/
def Instr.asCommand : Instr → Option (Byte × Command × Option Bool)
  | .identify tag => some (tag, .identify, none)
  | .readLink tag => some (tag, .readLink, none)
  | .setLinkTimeout tag seconds => some (tag, .setLinkTimeout seconds, none)
  | .authorize tag args => some (tag, .authorize args, none)
  | .cancel tag point => some (tag, .cancel point, none)
  | .stop tag point => some (tag, .stop point, none)
  | .suspend tag point => some (tag, .suspend point, none)
  | .resume tag point unlink => some (tag, .resume point unlink, none)
  | .openPoint tag point => some (tag, .openPoint point, none)
  | .closePoint tag point => some (tag, .closePoint point, none)
  | .restartPoint tag point => some (tag, .restartPoint point, none)
  | .clearSale tag point number => some (tag, .clearSale point number, none)
  | .readSale tag point selector => some (tag, .readSale point selector, none)
  | .setPointOptions tag args => some (tag, .setPointOptions args, none)
  | .setHose tag args closed => some (tag, .setHose args, some closed)
  | .setMeterTable tag meter points closed => some (tag, .setMeterTable meter points, some closed)
  | .setMeterLimits tag meter phaseLimit flowLimit closed => some (tag, .setMeterLimits meter phaseLimit flowLimit, some closed)
  | .readMetrology tag kind value closed => some (tag, .readMetrology kind value, some closed)
  | .priceChange tag args => some (tag, .priceChange args, none)
  | .cancelPriceChange tag => some (tag, .cancelPriceChange, none)
  | .readPrices tag => some (tag, .readPrices, none)
  | .readHead tag head => some (tag, .readHead head, none)
  | .cardMode tag args => some (tag, .cardMode args, none)
  | .cardRestart tag => some (tag, .cardRestart, none)
  | .cardStop tag => some (tag, .cardStop, none)
  | .cardTake tag => some (tag, .cardTake, none)
  | .cardSend tag content => some (tag, .cardSend content, none)
  | .readCard tag => some (tag, .readCard, none)
  | .readFault tag domain => some (tag, .readFault domain, none)
  | .clearFault tag domain token => some (tag, .clearFault domain token, none)
  | .setTotals tag slot volume money closed => some (tag, .setTotals slot volume money, some closed)
  | .readTotals tag slot => some (tag, .readTotals slot, none)
  | .recall tag point => some (tag, .recall point, none)
  | .wake tag => some (tag, .wake, none)
  | .sleep tag => some (tag, .sleep, none)
  | .setClock tag value => some (tag, .setClock value, none)
  | .setSchedule tag wake sleep onLift => some (tag, .setSchedule wake sleep onLift, none)
  | .setWakeSequence tag steps => some (tag, .setWakeSequence steps, none)
  | .setRestorePolicy tag policy => some (tag, .setRestorePolicy policy, none)
  | .readPower tag => some (tag, .readPower, none)
  | _ => none

/-- The metrology switch input once a row that carries its level has been taken (log entry 5). -/
def State.withSwitch (s : State) : Option Bool → State
  | some closed => s.readSwitch closed
  | none => s

/-- Rows executed one after another. -/
def execAll : List Instr → State → Outcome
  | [], s => .next s
  | i :: rest, s =>
    match exec i s with
    | .next t => execAll rest t
    | .fault r => .fault r
    | .refused r => .refused r

/-! ### Sales -/

/-- R21, R22: a point with this sale after a stop cause in FUELLING, SLOWDOWN or SUSPENDED. -/
def Point.stoppedBy (x : Point) (r : SaleRecord) (why : EndReason) (now : Nat) : Point :=
  { x with state := .stopping, relay := false, suspendDue := none, resume := none,
           sale := some { r with endReason := some why },
           settle := some ⟨now + x.options.settle, x.options.settle⟩, runOnDue := some (now + 10000) }

/-- R24: a point after a sale end, in the state it enters. -/
def Point.saleOver (x : Point) (next : PointState) (why : Option EndReason) : Point :=
  { x with state := next, sale := none, resume := none, suspendDue := none, runUp := .stopped, settle := none,
           runOnDue := none, closing := false, lastEnd := why, relay := false, testPassed := false }

/-- R8: a point whose entry is voided. -/
def Point.voided (x : Point) (cause : VoidCause) : Point :=
  { x with entry := none, authDue := none, lastVoid := some cause, reports := .clear,
           state := if x.nozzles = [] then .idle else .calling }

/-- R128, steps 2 to 6: the card channel contained at a moment, its inbound ring apart. -/
def CardChannel.cutFrom (c : CardChannel) (now : Nat) : CardChannel :=
  { c with state := .contained, restartPending := false, readyDue := none, reception := .outside, outbound := [],
           transmitting := none, txGapDue := none,
           lastPowerOff := if c.state = .starting ∨ c.state = .opened then now else c.lastPowerOff }

/-- R128, step 1, R115: the inbound ring with the frame in reception, if it has a byte, behind it with status ABORT, cut to 250
bytes (log entry 8). -/
def CardChannel.inboundAborted (c : CardChannel) : List CardFrame :=
  match c.reception with
  | .inside (x :: rest) _ _ => c.inbound ++ [⟨(x :: rest).take 250, .abort⟩]
  | _ => c.inbound

/-- R19: a point after card loss: a CARD-linked sale in FUELLING or SLOWDOWN is suspended, a CARD-linked entry in AUTHORIZED is
voided, and a point in any other state stays as it is. -/
abbrev State.cardLossReaches (s t : State) (p : Side) : Prop :=
  (((s.point p).state = .fuelling ∨ (s.point p).state = .slowdown) → ∀ r, (s.point p).sale = some r →
    (r.link = .card → t.noted (.point p) ∧ t.point p = { s.point p with
      state := .suspended, resume := some (if (s.point p).state = .fuelling then .fuelling else .slowdown),
      suspendDue := if (s.point p).options.suspendLimit = 0 then none
        else some (s.now + (s.point p).options.suspendLimit * 1000) }) ∧
    (r.link = .none → t.point p = s.point p)) ∧
  ((s.point p).state = .authorized → ∀ e, (s.point p).entry = some e →
    (e.link = .card → t.point p = (s.point p).voided .card ∧ t.noted (.point p)) ∧
    (e.link = .none → t.point p = s.point p)) ∧
  ((s.point p).state ≠ .fuelling → (s.point p).state ≠ .slowdown → (s.point p).state ≠ .authorized →
    t.point p = s.point p)

/-- R39, R49: a meter that no sale holds, that has counted nothing in this window, and whose U raises nothing. -/
abbrev State.quiet (s : State) (m : Meter) : Prop :=
  (s.meter m).holder = none ∧ (s.meter m).count = 0 ∧ (s.meter m).overrange = false ∧
  (s.meter m).u.natAbs < (s.meterSettings m).flowLimit * 10000000 ∧ (s.meter m).u.natAbs ≤ 9223372036854775807

/-- The motor relay may be on (R3). -/
def PointState.motorAllowed : PointState → Bool
  | .starting | .fuelling | .slowdown | .suspended => true
  | _ => false

/-- A point that holds a sale or an entry. -/
abbrev Point.serving (x : Point) : Prop := x.state.saleActive = true ∨ x.state = .authorized

/-- R1, R2, R15: a point holds a sale record exactly while it is sale-active and an entry exactly in AUTHORIZED, its relay is on
only where R3 lets it be, and its settle interval and run-on timer run only in STOPPING. -/
abbrev Point.sound (x : Point) : Prop :=
  (x.state.saleActive = true ↔ x.sale.isSome = true) ∧
  (x.state = .authorized ↔ x.entry.isSome = true) ∧
  (x.relay = true → x.state.motorAllowed = true) ∧
  ((x.settle.isSome = true ∨ x.runOnDue.isSome = true) → x.state = .stopping)

/-- R13: a point with a start request is in STARTING, its motor not granted yet. -/
abbrev State.requestSound (s : State) (p : Side) : Prop :=
  p ∈ s.arbiter.requests → (s.point p).state = .starting ∧ (s.point p).runUp = .stopped

/-- R3, R6, R29: the points are sound, the arbiter's list is one of STARTING points without repeats, sales and entries exist
only in RUN and CLOSING, and a wake wait runs only in WAKING. -/
abbrev State.salesSound (s : State) : Prop :=
  s.points.a.sound ∧ s.points.b.sound ∧
  s.requestSound .a ∧ s.requestSound .b ∧ s.arbiter.requests.Nodup ∧
  ((s.points.a.serving ∨ s.points.b.serving) → s.delivering = true) ∧
  ((s.power.wait.isSome = true ∨ s.power.steadySince.isSome = true) → s.power.state = .waking)

/-- R23: the finished-sale stack holds at most two records, at most one while an entry or a sale is there to add to it, with
distinct numbers, none of them the current sale's, and nonzero displayed volumes. -/
abbrev Point.stackSound (x : Point) : Prop :=
  x.stack.length ≤ 2 ∧
  ((x.serving ∨ x.sale.isSome = true) → x.stack.length ≤ 1) ∧
  (x.stack.map SaleRecord.number).Nodup ∧
  (∀ r ∈ x.sale, r.number ∉ x.stack.map SaleRecord.number) ∧
  (∀ r ∈ x.stack, r.displayed ≠ 0)

/-- R23: both stacks. -/
abbrev State.stacksSound (s : State) : Prop := s.points.a.stackSound ∧ s.points.b.stackSound

/-! ### Rings, queues and counts -/

/-- R120: the ring space that the frame in reception takes is free, and its place in the ring. -/
def Reception.fits (r : Reception) (c : CardChannel) : Bool :=
  match r with
  | .inside bytes _ _ => decide (c.inbound.length < Config.inboundFrames) &&
      (bytes.isEmpty || decide (c.inboundCost + bytes.length + 2 ≤ Config.inboundBytes))
  | _ => true

/-- R120, R123: the rings hold what they may hold. -/
abbrev CardChannel.sound (c : CardChannel) : Prop :=
  c.inbound.length ≤ Config.inboundFrames ∧ c.inboundCost ≤ Config.inboundBytes ∧
  c.outbound.length ≤ Config.outboundFrames ∧ c.outboundCost ≤ Config.outboundBytes ∧
  c.reception.fits c = true

/-- R180, R183, R186: at most four queued frames, at most four occupied reply slots, one notice for each subject. -/
abbrev LinkPort.sound (l : LinkPort) : Prop :=
  l.queue.length ≤ Config.queuePlaces ∧ l.occupied ≤ Config.replySlots ∧ l.subjects.Nodup

/-- R143: the write queue holds each record at most once. -/
abbrev Store.sound (x : Store) : Prop := x.queue.Nodup

/-- R35, R40, R38: the counts of a meter. -/
abbrev MeterUnit.bounded (x : MeterUnit) : Prop :=
  -Config.countLimit ≤ x.count ∧ x.count ≤ Config.countLimit ∧ -Config.countLimit ≤ x.lastCount ∧
  x.lastCount ≤ Config.countLimit ∧ x.idleErrors ≤ Config.countCap

/-- R33, R92, R110, R142, R171, R180: the counters of the part lie in their ranges. -/
abbrev State.bounded (s : State) : Prop :=
  (∀ m ∈ s.meters.units.toList, m.bounded) ∧
  s.heads.a.mismatches ≤ 3 ∧ s.heads.b.mismatches ≤ 3 ∧ s.card.run ≤ 3 ∧ s.power.aborts ≤ 2 ∧
  s.power.clock < Config.day ∧ s.power.clockMs < Config.second ∧
  s.link.badCount ≤ Config.countCap ∧ s.link.overruns ≤ Config.countCap

end Sys2Proof.Machine
end

