-- ==== Sys2Proof/Certificates/Slice0/Obligations.lean ====
section
/-! DEFINITION. What is claimed of the model. Each statement names the rule of spec/ it formalises; the words it is written
in (frames, replies, invariants) are those of Safety.lean. A row that a timer causes is compared with the state at the
moment of that timer, `s.advanceTo due` (log entry 2). -/

open Sys2Proof Sys2Proof.Machine

/-! ### The block, its queue and its time -/

/-- The row at the front of the queue is executed on the state with the queue's rest. -/
def Obligations.StepExecutesTheFrontRow : Prop :=
  ∀ (c : Instr) (rest : List Instr) (s : State), s.pending = c :: rest → step s = exec c (s.withPending rest)

/-- With no row waiting a step lets one millisecond pass (DESIGN CHOICE, log entry 2), and R171 tells what that does to the
clock: it counts on and wraps after the last second of the day, unless R158 has stopped it. -/
def Obligations.IdleStepRunsTheClock : Prop :=
  ∀ (s : State), s.pending = [] → s.power.clock < 86400 → s.power.clockMs < 1000 →
    ∃ t, step s = .next t ∧ t.now = s.now + 1 ∧ s.changesOnly t [.now, .power] ∧
      t.power = { s.power with clock := t.power.clock, clockMs := t.power.clockMs, clockEntered := t.power.clockEntered } ∧
      (s.power.state = .dark ∧ s.power.cell = .low → t.power = s.power) ∧
      (¬ (s.power.state = .dark ∧ s.power.cell = .low) →
        t.power.clock * 1000 + t.power.clockMs = (s.power.clock * 1000 + s.power.clockMs + 1) % 86400000)

/-- R161, R158, R143, R3, R93, R105, R111: the part before its first supply is in DARK with a backup domain never kept; every
output is off. That its records are blank is the model's choice (log entry 1). -/
def Obligations.ResetIsDark : Prop :=
  State.reset.power.state = .dark ∧ State.reset.power.clock = 0 ∧ State.reset.power.clockValid = false ∧
  State.reset.power.clockKept = false ∧ State.reset.power.pendingPrice = false ∧
  State.reset.store.records = Records.blank ∧ State.reset.pending = [] ∧
  (∀ h, State.reset.mainValve h = false ∧ State.reset.slowValve h = false) ∧
  State.reset.motorRelay .a = false ∧ State.reset.motorRelay .b = false ∧
  (∀ p, (State.reset.head p).power = false ∧ (State.reset.head p).heater = false) ∧ State.reset.power.motorDrive = false ∧
  State.reset.card.state.powered = false

/-! ### Invariants -/

/-- The state before the first supply has every property that the next statements say each step keeps. -/
def Obligations.ResetMeetsTheInvariants : Prop :=
  State.reset.salesSound ∧ State.reset.stacksSound ∧ State.reset.card.sound ∧ State.reset.link.sound ∧
  State.reset.store.sound ∧ State.reset.bounded

/-- R1, R2, R3, R13, R15, R29: sales, entries, relays and start requests stay where their point states put them. -/
def Obligations.StepKeepsSalesSound : Prop :=
  ∀ (s t : State), s.salesSound → step s = .next t → t.salesSound

/-- R23: the finished-sale stacks stay within two records of distinct numbers and nonzero volume. -/
def Obligations.StepKeepsStacksSound : Prop :=
  ∀ (s t : State), s.stacksSound → step s = .next t → t.stacksSound

/-- R120, R121, R123: neither ring of the card channel ever holds more than it may. -/
def Obligations.StepKeepsCardRings : Prop :=
  ∀ (s t : State), s.card.sound → step s = .next t → t.card.sound

/-- R183, R186, R187: the inbound queue, the reply slots and the notice slots never overflow. -/
def Obligations.StepKeepsLinkSlots : Prop :=
  ∀ (s t : State), s.link.sound → step s = .next t → t.link.sound

/-- R146, R33, R40, R92, R110, R142, R171, R180: the write queue holds each record at most once, and the counters of the part
stay in their ranges. -/
def Obligations.StepKeepsWriteQueueAndCounters : Prop :=
  (∀ (s t : State), s.store.sound → step s = .next t → t.store.sound) ∧
  (∀ (s t : State), s.bounded → step s = .next t → t.bounded)

/-! ### Frames on the two lines -/

/-- R192, R193: the interpreter reads back every command from the KIND and payload that spell it. -/
def Obligations.CommandFrameReadsBack : Prop :=
  ∀ (c : Command), c.wf = true → judge (Command.kind c) (Command.payload c) = .command c

/-- R181, R182: a hunting receiver that is sent the characters of a frame of at most 250 payload bytes, without silence
between them, takes exactly that frame as a good frame. -/
def Obligations.FrameCharactersArriveAsTheFrame : Prop :=
  ∀ (s : State) (f : Frame), s.running = true → s.link.receiver = .hunting → f.payload.length ≤ 250 →
    execAll (f.characters.map fun b => .hostCharacterReceived b false) s = .next (s.goodFrame f)

/-- R113, R120, R127: an OPEN channel in FRAMED mode that is sent the line characters of a frame, with a free place and
room in its ring, ends with that frame in the ring, status OK, and its bad-frame run at 0. -/
def Obligations.CardFrameCharactersJoinTheRing : Prop :=
  ∀ (s : State) (content : List Byte), s.card.state = .opened → s.card.settings.mode = .framed →
    s.card.reception = .outside → 1 ≤ content.length → content.length ≤ 250 → s.card.inbound.length < 8 →
    content.length + 4 ≤ s.card.inboundFree → s.waitsFor .readerReady = false →
    ∃ t, execAll ((CardMode.framed.lineCharacters content).map .cardByteReceived) s = .next t ∧
      t.card = { s.card with inbound := s.card.inbound ++ [⟨content, .ok⟩], run := 0, rxLast := s.now } ∧
      (s.running = true → t.noted .card) ∧ s.touches t [.card]

/-! ### Commands at the interpreter -/

/-- R184: while the link runs and a reply slot is free, each of the forty command rows is taken and judged by its owner. -/
def Obligations.CommandRowGoesToItsOwner : Prop :=
  ∀ (i : Instr) (s : State) (tag : Byte) (c : Command) (level : Option Bool),
    Instr.asCommand i = some (tag, c, level) → s.takes →
    exec i s = .next ((s.withSwitch level).take (Command.kind c) tag (ownerOf c))

/-- R182, R184, R193: a good frame of a well-formed command, on a link that is UP with an empty inbound queue and a free slot,
restarts a running link-loss timer and goes to its owner. One whose KIND names no command is refused UNKNOWN, and one whose
payload does not fit its command is refused LENGTH; neither does anything else. The reply KIND to an unknown KIND is a free
value (log entry 9). -/
def Obligations.GoodFrameIsTaken : Prop :=
  (∀ (s : State) (tag : Byte) (c : Command) (closed : Bool),
     s.takes → s.link.up = true → s.link.queue = [] → c.wf = true → (Command.payload c).length ≤ 250 →
     exec (.goodFrame (Command.kind c) tag (Command.payload c) closed) s =
       .next (((s.readSwitch closed).withLink { s.link with
           receiver := .hunting,
           lossDue := if s.link.lossDue = none ∨ s.link.timeout = 0 then none
             else some (s.now + s.link.timeout * 1000) }).take (Command.kind c) tag (ownerOf c))) ∧
  (∀ (s : State) (kind tag : Byte) (payload : List Byte) (closed : Bool),
     s.takes → s.link.up = true → s.link.queue = [] → s.link.lossDue = none → s.link.receiver = .hunting →
     payload.length ≤ 250 →
     ((kind = 0 ∨ 0x29 ≤ kind.toNat) → ∃ t, exec (.goodFrame kind tag payload closed) s = .next t ∧
       t.replied ⟨Config.unknownReplyKind kind, tag, [2, 1], []⟩ ∧ s.touches t [.pins]) ∧
     ((1 ≤ kind.toNat ∧ kind.toNat ≤ 0x28 ∧ parsePayload kind.toNat payload = none) →
       ∃ t, exec (.goodFrame kind tag payload closed) s = .next t ∧
         t.replied ⟨kind + 0x80, tag, [2, 2], []⟩ ∧ s.touches t [.pins]))

/-- R184, R185: a command that is taken occupies exactly one reply slot until its reply has been sent. -/
def Obligations.TakenCommandHoldsOneReplySlot : Prop :=
  ∀ (i : Instr) (s : State) (tag : Byte) (c : Command) (level : Option Bool),
    Instr.asCommand i = some (tag, c, level) → s.takes → (∀ w ∈ s.link.waiting, w.waits ≠ .owner) →
    ∃ t, exec i s = .next t ∧ t.link.occupied = s.link.occupied + 1 ∧ (∀ w ∈ t.link.waiting, w.waits ≠ .owner)

/-- R182, R183: with all reply slots occupied a good frame waits at the end of the inbound queue; when it finds four frames
queued it is discarded and counted with its tag. Either way it restarts a running link-loss timer. -/
def Obligations.FullQueueOverruns : Prop :=
  ∀ (s : State) (kind tag : Byte) (payload : List Byte) (closed : Bool) (due : Option Nat),
    s.running = true → s.link.free = 0 → s.link.up = true → payload.length ≤ 250 →
    due = (if s.link.lossDue = none ∨ s.link.timeout = 0 then none else some (s.now + s.link.timeout * 1000)) →
    (s.link.queue.length = 4 → ∃ t, exec (.goodFrame kind tag payload closed) s = .next t ∧ t.noted .link ∧
      (s.withLink { s.link with receiver := .hunting, lossDue := due, lastOverrun := some tag,
                                overruns := min 65535 (s.link.overruns + 1) }).touches t [.pins]) ∧
    (s.link.queue.length < 4 → ∃ t, exec (.goodFrame kind tag payload closed) s = .next t ∧
      (s.withLink { s.link with receiver := .hunting, lossDue := due,
                                queue := s.link.queue ++ [⟨kind, tag, payload⟩] }).changesOnly t [.pins])

/-- R181, R191: every cause discards the frame in reception, counts it, and raises the LINK notice; a bad frame restores no
link and restarts no timer. The silence is met more than 10 ms after the last character. -/
def Obligations.BadFrameIsCounted : Prop :=
  ∀ (s : State), s.running = true →
    (∀ cause, ∃ t, exec (.badFrame cause) s = .next t ∧ t.noted .link ∧
      (s.withLink { s.link with receiver := .hunting, badCount := min 65535 (s.link.badCount + 1),
                                lastBad := some cause }).touches t []) ∧
    (∀ bytes last, s.link.receiver = .inFrame bytes last →
      ∃ t, exec .interCharacterGap s = .next t ∧ last + 10 < t.now ∧ t.noted .link ∧
        ((s.advanceTo (last + 11)).withLink { s.link with
          receiver := .hunting, badCount := min 65535 (s.link.badCount + 1), lastBad := some .gap }).touches t [])

/-- R181: one character at the host's receiver: the sync byte begins a frame, any other is skipped, a LEN byte above 250 and
a line error end the frame, any byte that does not complete the frame is kept, and the byte that completes it makes it good
or, with a check code that disagrees, bad. A character after more than 10 ms of silence meets a receiver that has given the
frame up. That a line error is met before LEN and check code is the model's choice (log entry 30). -/
def Obligations.HostCharacterMovesTheReceiver : Prop :=
  ∀ (s : State) (b : Byte) (e : Bool), s.running = true →
    (s.link.receiver = .hunting → b = 0xB7 → e = false → ∃ t, exec (.hostCharacterReceived b e) s = .next t ∧
      t = s.withLink { s.link with receiver := .inFrame [] s.now }) ∧
    (s.link.receiver = .hunting → (b ≠ 0xB7 ∨ e = true) → exec (.hostCharacterReceived b e) s = .next s) ∧
    (∀ bytes last, s.link.receiver = .inFrame bytes last → s.now ≤ last + 10 → e = true →
      exec (.hostCharacterReceived b e) s = .next (s.badFrame .lineError)) ∧
    (∀ last, s.link.receiver = .inFrame [] last → s.now ≤ last + 10 → e = false → 250 < b.toNat →
      exec (.hostCharacterReceived b e) s = .next (s.badFrame .length)) ∧
    (∀ last, s.link.receiver = .inFrame [] last → s.now ≤ last + 10 → e = false → b.toNat ≤ 250 →
      exec (.hostCharacterReceived b e) s = .next (s.withLink { s.link with receiver := .inFrame [b] s.now })) ∧
    (∀ len bytes last, s.link.receiver = .inFrame (len :: bytes) last → s.now ≤ last + 10 → e = false →
      bytes.length + 2 < len.toNat + 5 →
      exec (.hostCharacterReceived b e) s =
        .next (s.withLink { s.link with receiver := .inFrame (len :: bytes ++ [b]) s.now })) ∧
    (∀ len bytes last, s.link.receiver = .inFrame (len :: bytes) last → s.now ≤ last + 10 → e = false →
      ∀ kind tag rest, bytes ++ [b] = kind :: tag :: rest → rest.length = len.toNat + 2 →
      exec (.hostCharacterReceived b e) s = .next (
        if crcBytes (len :: kind :: tag :: rest.take len.toNat) = rest.drop len.toNat
        then s.goodFrame ⟨kind, tag, rest.take len.toNat⟩ else s.badFrame .check)) ∧
    (∀ bytes last, s.link.receiver = .inFrame bytes last → last + 10 < s.now →
      exec (.hostCharacterReceived b e) s = .next (
        if b = 0xB7 ∧ e = false
        then (s.badFrame .gap).withLink { (s.badFrame .gap).link with receiver := .inFrame [] s.now }
        else s.badFrame .gap))

/-- R187, R184, R186, R91: when a frame has been sent, the oldest FINISHED reply goes out next, and else the oldest queued notice
of the first class with its content taken afresh, and else the line is idle. The slot of a sent reply is free, and a queued command
takes it before the choice (DESIGN CHOICE, log entry 13). A raise kept during a notice queues it again, and the notice that carried
the superseded mark clears it. Nothing else changes but the switch input, and on an idle line nothing else at all.
R192, R194, R21, R32, R51, R136, R165, R179, R191: a notice is the KIND of its class, the TAG of its subject, the six-byte header and the
record of its subject as it stands; numbers go low byte first. The records that R194 lays out are the point status, SALE, fault
capture and power status records with the restore summary. The widths of the METER record, of a POWER notice's origin 00 and of the
PRICE notice's mark are the model's choice (log entry 6), as are the absent overrun tag (34), motor drive on as 01 (35), the
rounding of the wait's seconds, which is free (9), the card record's off-delay time of 0 without a pending restart (39).
The layouts give no byte to R21's end reason in STOPPING and to the clock's valid flag of R179 and R165: such an item stands beside
the bytes of the message (log entry 28). -/
def Obligations.SentFrameMakesWayForTheNext : Prop :=
  (∀ (s : State) (closed : Bool),
    (∀ f, s.link.line = .reply f → s.link.queue = [] →
      ∃ t, exec (.outboundFrameSent closed) s = .next t ∧ s.changesOnly t [.pins, .link] ∧
        t.pins = { s.pins with metrologyClosed := closed } ∧ t.link.occupied + 1 = s.link.occupied ∧
        (∀ g rest, s.link.finished = g :: rest → t.link = { s.link with line := .reply g, finished := rest }) ∧
        (s.link.finished = [] → s.link.notices = [] → t.link = { s.link with line := .idle }) ∧
        (s.link.finished = [] → s.link.notices ≠ [] → t.startsNotice s.link)) ∧
    (∀ f, s.link.line = .reply f → ∀ g rest, s.link.queue = g :: rest →
      s.link.waiting.length + s.link.finished.length = 3 → (∀ w ∈ s.link.waiting, w.waits ≠ .owner) →
      exec (.outboundFrameSent closed) s = .next ((((s.readSwitch closed).withLink
        { s.link with line := .choosing, queue := rest }).take g.kind g.tag (ownerOfFrame g)).chooseFrame)) ∧
    (∀ n f again carries, s.link.line = .notice n f again carries →
      ∀ queued, queued = (if again = true then s.link.notices ++ [⟨n, false⟩] else s.link.notices) →
      ∃ t, exec (.outboundFrameSent closed) s = .next t ∧ s.changesOnly t [.pins, .prices, .link] ∧
        t.pins = { s.pins with metrologyClosed := closed } ∧
        t.prices = { s.prices with superseded := s.prices.superseded && !carries } ∧
        (∀ g rest, s.link.finished = g :: rest →
          t.link = { s.link with line := .reply g, finished := rest, notices := queued }) ∧
        (s.link.finished = [] → queued = [] → t.link = { s.link with line := .idle, notices := [] }) ∧
        (s.link.finished = [] → queued ≠ [] → t.startsNotice { s.link with notices := queued })) ∧
    (s.link.line = .idle → exec (.outboundFrameSent closed) s = .next (s.readSwitch closed))) ∧
  (∀ v : Nat, le 2 v = [byte v, byte (v / 256)] ∧
    le 4 v = [byte v, byte (v / 256), byte (v / 65536), byte (v / 16777216)]) ∧
  (∀ (s : State) (late : Bool) (header : List Byte),
    header = byte ((if late = true then 1 else 0) + (if s.power.clockValid = true then 2 else 0)) ::
      byte ([PowerState.dark, .restore, .standby, .waking, .run, .closing, .powerfail].idxOf s.power.state) ::
      le 4 s.power.clock →
    (∀ p : Side, ∀ x, x = s.point p →
      s.noticeFrame ⟨.point p, late⟩ = ⟨0xC1, if p = .a then 0 else 1, header ++
        [byte ([PointState.closed, .idle, .calling, .authorized, .starting, .fuelling, .slowdown, .suspended, .stopping,
            .halted].idxOf x.state),
          x.resume.elim 0xFF (fun r => if r = .fuelling then 5 else 6), byte x.nozzles.length] ++
        [0, 1, 2, 3].map (fun i => (x.nozzles[i]?).elim 0xFF (fun h => byte h.val)) ++
        x.nozzles.head?.elim 0xFF (fun h => byte h.val) ::
        x.entry.elim (List.replicate 9 0) (fun e => 1 :: byte e.mask.toNat :: 
            (match e.preset with
              | none => [0, 0, 0, 0, 0]
              | some (.volume cl) => 1 :: le 4 cl
              | some (.money cents) => 2 :: le 4 cents) ++
          [if e.link = .card then 1 else 0, byte e.generation.toNat]) ++
        [x.lastVoid.elim 0xFF (fun c =>
            byte ([VoidCause.cancel, .timeout, .price, .link, .card, .close, .halt].idxOf c)),
          byte ((if x.reports.gradeNotAllowed = true then 1 else 0) + (if x.reports.hoseBlocked = true then 2 else 0) +
            (if x.reports.cardNotOpen = true then 4 else 0)),
          if x.closing = true then 1 else 0] ++
        le 2 (x.sale.elim 0 fun r => r.number.toNat) ++ [if (s.head p).coldMark = true then 1 else 0],
        if x.state = .stopping then x.sale.elim [] fun r => r.endReason.elim [] fun why => [.endReason why] else []⟩ ∧
      s.noticeFrame ⟨.sale p, late⟩ = ⟨0xC2, if p = .a then 0 else 1, header ++
        byte x.stack.length :: (x.stack.flatMap fun r => le 2 r.number.toNat ++ [byte r.hose.val, byte r.grade.val] ++
          le 4 r.displayed ++ le 4 r.money ++ [endReasonByte r.endReason,
            byte ((if r.unverified = true then 1 else 0) + (if r.overrun = true then 2 else 0) +
              (if r.capacity = true then 4 else 0) + (if r.unlinked = true then 8 else 0) +
              (if r.recovered = true then 16 else 0))]) ++
        [endReasonByte x.lastEnd], []⟩) ∧
    (∀ m : Meter, ∀ x, x = s.meter m →
      s.noticeFrame ⟨.meter m, late⟩ = ⟨0xC3, byte m.val, header ++
        [byte m.val, (s.owner m).elim 0xFF (fun p => if p = .a then 0 else 1),
          x.holder.elim 0xFF (fun p => if p = .a then 0 else 1)] ++
        le 2 (x.holder.elim 0 fun p => (s.point p).sale.elim 0 fun r => r.number.toNat) ++
        le 8 (x.u.emod 18446744073709551616).toNat ++ [if x.limitMark = true then 1 else 0] ++
        le 2 (x.lastCount.emod 65536).toNat ++ [if x.lastOverrange = true then 1 else 0] ++ le 2 x.idleErrors, []⟩) ∧
    (∀ d : Domain, ∀ x, x = s.capture d →
      s.noticeFrame ⟨.fault d, late⟩ = ⟨0xC4, byte ([Domain.pointA, .pointB, .card, .supply].idxOf d), header ++
        x.fault.elim (List.replicate 7 0) (fun f => 1 :: faultCodeByte f.code ::
          byte ([Severity.note, .fault, .halt].idxOf f.severity) :: originPair f.origin ++
          le 2 (f.sale.elim 0 fun n => n.toNat)) ++
        [byte x.token.toNat, if x.fault.isSome = true ∧ x.more = true then 1 else 0], []⟩) ∧
    s.noticeFrame ⟨.card, late⟩ = ⟨0xC5, 0, header ++ s.cardContent, []⟩ ∧
    s.noticeFrame ⟨.price, late⟩ =
      ⟨0xC6, 0, header ++ s.priceContent ++ [if s.prices.superseded = true then 1 else 0], []⟩ ∧
    (∀ x, x = s.power → ∀ y, y = x.summary →
      s.noticeFrame ⟨.power, late⟩ = ⟨0xC7, 0, header ++
        [byte ([PowerState.dark, .restore, .standby, .waking, .run, .closing, .powerfail].idxOf x.state), byte x.stepIndex,
          x.wait.elim 0xFF fun w => if w.wait = .none then 0 else if w.wait = .delay then 1
            else if w.wait = .readerReady then 3 else if w.wait = .supplySteady then 4 else 2] ++
        le 2 (x.wait.elim 0 fun w => s.remainingSeconds w.due) ++
        [byte ([Supply.aboveRestore, .between, .belowWarn].idxOf x.supply), if x.cell = .good then 0 else 1] ++
        le 4 x.clock ++ le 4 (x.wakeTime.getD 0xFFFFFFFF) ++ le 4 (x.sleepTime.getD 0xFFFFFFFF) ++
        [if x.wakeOnLift = true then 1 else 0, if x.policy = .hold then 0 else 1,
          byte ([PowerState.dark, .restore, .standby, .waking, .run, .closing, .powerfail].idxOf x.loaded),
          if x.motorDrive = true then 1 else 0, byte x.aborts] ++
        [byte ([RestoreCause.dark, .brownout, .reset].idxOf y.cause), if y.clockKept = true then 0 else 1,
          byte ([PendingFound.none, .discarded, .notKnown].idxOf y.pendingSet),
          y.next.elim 0xFF fun n =>
            byte ([PowerState.dark, .restore, .standby, .waking, .run, .closing, .powerfail].idxOf n)] ++
        byte y.recovered.length ::
          (y.recovered.flatMap fun r => (if r.point = .a then 0 else 1) :: le 2 r.number.toNat) ++
        byte y.findings.length :: (y.findings.flatMap fun f => faultCodeByte f.code ::
          byte ([Domain.pointA, .pointB, .card, .supply].idxOf f.domain) :: originPair f.origin),
        [.clockValid x.clockValid, .summaryClockValid y.clockValid]⟩) ∧
    s.noticeFrame ⟨.link, late⟩ = ⟨0xC8, 0, header ++
      [if s.link.up = true then 0 else 1, byte s.link.timeout] ++ le 2 s.link.badCount ++
      [s.link.lastBad.elim 0xFF fun c => byte ([BadCause.gap, .length, .check, .lineError].idxOf c)] ++
      le 2 s.link.overruns ++ [s.link.lastOverrun.getD 0xFF, byte s.link.queue.length, byte s.link.free], []⟩)

/-- R188, R8, R30: at the expiry of the link-loss timer while the link is UP the link becomes LOST, and a point in AUTHORIZED
loses its entry with cause LINK. A good frame restores a LOST link: it is UP again and its timer runs anew; with no point in
AUTHORIZED nothing else follows before the frame is taken. -/
def Obligations.LinkIsLostAndRestored : Prop :=
  (∀ (s : State) (due : Nat), s.link.lossDue = some due → s.running = true → s.link.up = true →
     (∀ p, (s.point p).state = .authorized ↔ (s.point p).entry.isSome = true) →
     ∃ t, exec .linkLossTimeout s = .next t ∧ due ≤ t.now ∧ t.noted .link ∧
       (∀ p, (s.point p).state ≠ .authorized → t.point p = s.point p) ∧
       (∀ p, (s.point p).state = .authorized → t.noted (.point p) ∧ t.point p = (s.point p).voided .link) ∧
       ((s.advanceTo due).withLink { s.link with up := false, lossDue := none }).touches t [.points]) ∧
  (∀ (s : State) (kind tag : Byte) (payload : List Byte) (closed : Bool),
     s.lossTimed = true → s.link.up = false → s.link.free = 0 → s.link.queue.length < 4 → payload.length ≤ 250 →
     (∀ p, (s.point p).state ≠ .authorized) →
     ∃ t, exec (.goodFrame kind tag payload closed) s = .next t ∧ t.noted .link ∧
       (s.withLink { s.link with
         receiver := .hunting, up := true, queue := s.link.queue ++ [⟨kind, tag, payload⟩],
         lossDue := if s.link.timeout = 0 then none else some (s.now + s.link.timeout * 1000) }).touches t [.pins])

/-! ### Reads -/

/-- R90, R108, R130, R179, R191, R193: IDENTIFY, READ LINK, READ PRICES, READ HEAD, READ CARD and READ POWER are answered at
once with their record and change nothing; READ HEAD for no head is refused RANGE. The slot of READ LINK itself is occupied
when the free slots are counted. Field order and widths that chapter 11 does not give are the model's choice (log entry 6), and so
are FF for the absent tag of READ LINK's last overrun (log entry 34) and 01 for outputs on and controls enabled in READ HEAD, READ
CARD and READ POWER (log entry 35), and 0 for READ CARD's off-delay time without a pending restart (log entry 39). READ POWER
reports the clock's valid flag and that of the restore summary beside the bytes of its record, whose layout has none for them (log
entry 28), and sends an unused time or outcome of a wake step as the table holds it (log entry 40). -/
def Obligations.BlockReadsAnswer : Prop :=
  ∀ (s : State) (tag b : Byte), s.takes →
    s.answersOnly (.identify tag) (doneFrame .identify tag false
      [0x21, 0x0A, 1, 6, 8, 2, if s.link.speed = .baud115200 then 1 else 0]) ∧
    ((∀ w ∈ s.link.waiting, w.waits ≠ .owner) → s.answersOnly (.readLink tag) (doneFrame .readLink tag false
      (flagByte (!s.link.up) :: byte s.link.timeout :: le 2 s.link.badCount ++ optByte (s.link.lastBad.map badCauseByte) ::
        le 2 s.link.overruns ++
        [optByte s.link.lastOverrun, byte s.link.queue.length, byte (s.link.free - 1)]))) ∧
    s.answersOnly (.readPrices tag) (doneFrame .readPrices tag false s.priceContent) ∧
    s.answersOnly (.readCard tag) (doneFrame .readCard tag false s.cardContent) ∧
    s.answersOnly (.readPower tag) ⟨0xA8, tag, 0 :: s.powerReply,
      [.clockValid s.power.clockValid, .summaryClockValid s.power.summary.clockValid]⟩ ∧
    (∀ p, sideOf b = some p →
      s.answersOnly (.readHead tag b) (doneFrame (.readHead b) tag false (s.headReply p))) ∧
    (2 ≤ b.toNat → s.answersOnly (.readHead tag b) (refusedFrame (.readHead b) tag .range))

/-- R25, R59, R156: READ SALE, READ TOTALS, RECALL and READ METROLOGY return what they name and change nothing. The widths of
the fields of READ TOTALS and READ METROLOGY that chapter 11 does not give are the model's choice (log entry 6), and so is that
SUMMARY takes any value byte (log entry 29). -/
def Obligations.RecordReadsAnswer : Prop :=
  ∀ (s : State) (tag b : Byte) (n : BitVec 16) (closed : Bool), s.takes →
    (∀ p, sideOf b = some p → n ≠ 0 → ((s.point p).stack.map SaleRecord.number).Nodup →
      ∀ r ∈ (s.point p).stack, r.number = n →
      s.answersOnly (.readSale tag b n) (doneFrame (.readSale b n) tag false r.bytes)) ∧
    (∀ p, sideOf b = some p → n = 0 → ∀ r, (s.point p).sale = some r →
      s.answersOnly (.readSale tag b n) (doneFrame (.readSale b n) tag false r.bytes)) ∧
    (∀ p, sideOf b = some p → n = 0 → (s.point p).sale = none →
      s.answersOnly (.readSale tag b n) (refusedFrame (.readSale b n) tag .notFound)) ∧
    (∀ h, slotOf b = some h →
      s.answersOnly (.readTotals tag b) (doneFrame (.readTotals b) tag false (s.totalsReply h))) ∧
    (∀ p, sideOf b = some p →
      s.answersOnly (.recall tag b) (doneFrame (.recall b) tag false (s.recallReply p))) ∧
    (∀ kind sel, selectorOf kind b = some sel → ∃ t, exec (.readMetrology tag kind b closed) s = .next t ∧
      t.replied (doneFrame (.readMetrology kind b) tag false ((s.readSwitch closed).metrologyReply sel)) ∧
      s.touches t [.pins])

/-! ### Fault captures -/

/-- R133: a fault's arrival at its capture. -/
def Obligations.FaultArrivalIsRecorded : Prop :=
  ∀ (s : State) (d : Domain) (f : FaultRecord),
    ((s.arrive d f).capture d).token = (s.capture d).token + 1 ∧
    ((s.capture d).fault = none →
      ((s.arrive d f).capture d).fault = some f ∧ ((s.arrive d f).capture d).more = (s.capture d).more) ∧
    (∀ old, (s.capture d).fault = some old → old.severity.code.toNat < f.severity.code.toNat →
      ((s.arrive d f).capture d).fault = some f ∧ ((s.arrive d f).capture d).more = true) ∧
    (∀ old, (s.capture d).fault = some old → f.severity.code.toNat ≤ old.severity.code.toNat →
      ((s.arrive d f).capture d).fault = some old ∧ ((s.arrive d f).capture d).more = true) ∧
    (s.running = true → (s.arrive d f).noted (.fault d)) ∧
    (∀ e, e ≠ d → (s.arrive d f).capture e = s.capture e) ∧ s.touches (s.arrive d f) [.captures]

/-- R137, R194: READ FAULT answers with the capture record. Its bytes are laid out by R194; that the value of a fault without
origin is sent as 00 is the model's choice (log entry 6). -/
def Obligations.ReadFaultReturnsTheCapture : Prop :=
  ∀ (s : State) (tag b : Byte), s.takes →
    (4 ≤ b.toNat → s.answersOnly (.readFault tag b) (refusedFrame (.readFault b) tag .range)) ∧
    (∀ d, domainOf b = some d →
      s.answersOnly (.readFault tag b) (doneFrame (.readFault b) tag false (s.capture d).bytes) ∧
      ((s.capture d).fault = none → (s.capture d).bytes = [0, 0, 0, 0, 0, 0, 0, byte (s.capture d).token.toNat, 0]) ∧
      (∀ f, (s.capture d).fault = some f → (s.capture d).bytes = 1 :: f.code.code :: f.severity.code ::
        originBytes f.origin ++ le 2 (f.sale.elim 0 BitVec.toNat) ++
        [byte (s.capture d).token.toNat, flagByte (s.capture d).more]))

/-- R138: CLEAR FAULT. -/
def Obligations.ClearFaultNeedsTheToken : Prop :=
  ∀ (s : State) (tag b token : Byte), s.takes →
    ((4 ≤ b.toNat ∨ 15 < token.toNat) →
      s.answersOnly (.clearFault tag b token) (refusedFrame (.clearFault b token) tag .range)) ∧
    (∀ d, domainOf b = some d → token.toNat ≤ 15 →
      (token.toNat ≠ (s.capture d).token.toNat → s.answersOnly (.clearFault tag b token)
        ⟨0x9E, tag, [2, 0x0B, byte (s.capture d).token.toNat], []⟩) ∧
      (token.toNat = (s.capture d).token.toNat → (s.capture d).fault = none →
        s.answersOnly (.clearFault tag b token) (doneFrame (.clearFault b token) tag false [token])) ∧
      (token.toNat = (s.capture d).token.toNat → (s.capture d).fault ≠ none →
        ∃ t, exec (.clearFault tag b token) s = .next t ∧
          t.captures = s.captures.set d ⟨none, (s.capture d).token, false⟩ ∧
          t.power = (if d = .supply then { s.power with aborts := 0 } else s.power) ∧
          t.replied (doneFrame (.clearFault b token) tag false [token]) ∧ t.noted (.fault d) ∧
          s.touches t [.captures, .power]))

/-! ### Nozzles and authorization -/

/-- R4, R168, R170: a lift of a present slot joins the nozzle list: an IDLE point enters CALLING, a point in any state but IDLE
and AUTHORIZED keeps its state, and a second nozzle raises NOZZLE_CONFLICT, of NOTE severity, with the new slot as origin. With
the wake-on-lift flag set a lift in STANDBY wakes the part, here with an empty wake table into RUN, unless the SUPPLY capture
holds HALT; in another power state it is an ordinary lift. -/
def Obligations.NozzleLiftJoinsTheList : Prop :=
  ∀ (s : State) (h : Slot) (p : Side), Slot.side h = p → s.running = true →
    s.pins.nozzleUp.get h = false → (s.hose h).isSome = true → h ∉ (s.point p).nozzles →
    ((s.power.wakeOnLift = false ∨ s.power.state ≠ .standby ∨ s.holdsHalt .supply = true) →
      ((s.point p).nozzles = [] → (s.point p).state ≠ .authorized →
        ∃ t, exec (.nozzleLift h) s = .next t ∧
          t.points = s.points.set p { s.point p with
            nozzles := [h], state := if (s.point p).state = .idle then .calling else (s.point p).state } ∧
          t.pins = { s.pins with nozzleUp := s.pins.nozzleUp.set h true } ∧ t.noted (.point p) ∧
          s.touches t [.pins, .points]) ∧
      ((s.point p).nozzles ≠ [] →
        ∃ t, exec (.nozzleLift h) s = .next t ∧
          t.points = s.points.set p { s.point p with nozzles := (s.point p).nozzles ++ [h] } ∧
          t.captures = s.captures.set (Side.domain p)
            ((s.capture (Side.domain p)).arrive ⟨.nozzleConflict, .note, some (.slot h), none⟩) ∧
          t.pins = { s.pins with nozzleUp := s.pins.nozzleUp.set h true } ∧ t.noted (.point p) ∧
          s.touches t [.pins, .points, .captures])) ∧
    (s.power.wakeOnLift = true → s.power.state = .standby → s.holdsHalt .supply = false → (s.point p).nozzles = [] →
      (s.point p).state = .closed → s.prices.pending = none → s.power.table = [] →
      ∃ t, exec (.nozzleLift h) s = .next t ∧
        t.points = s.points.set p { s.point p with nozzles := [h] } ∧
        t.power = { s.power with state := .run, motorDrive := true, stepIndex := 0, wait := none, steadySince := none,
                                 aborts := 0, field := .run } ∧
        (∀ q, (t.head q).power = true ∧ (t.head q).heaterEnabled = true) ∧ t.recording .power ∧
        t.pins = { s.pins with nozzleUp := s.pins.nozzleUp.set h true } ∧ t.noted (.point p) ∧ t.noted .power ∧
        s.touches t [.pins, .points, .heads, .power, .store])

/-- R5, R9: a hang removes the slot from the nozzle list; it empties CALLING into IDLE, and a hang of the sale's hose in
FUELLING, SLOWDOWN or SUSPENDED stops the sale with end reason NOZZLE. Hangs of other slots during a sale, and hangs in IDLE,
CLOSED, HALTED and STOPPING, change the list alone. A point in AUTHORIZED keeps its entry; when its last nozzle is hung, its
start condition is evaluated, and a standing "card not open" clears if the link item is true. -/
def Obligations.NozzleHangLeavesTheList : Prop :=
  ∀ (s : State) (h : Slot) (p : Side), Slot.side h = p → s.running = true → s.pins.nozzleUp.get h = true →
    h ∈ (s.point p).nozzles →
    ((s.point p).state = .calling →
      ∃ t, exec (.nozzleHang h) s = .next t ∧
        t.points = s.points.set p { s.point p with
          nozzles := (s.point p).nozzles.filter (fun k => decide (k ≠ h)),
          state := if (s.point p).nozzles.filter (fun k => decide (k ≠ h)) = [] then .idle else .calling } ∧
        t.pins = { s.pins with nozzleUp := s.pins.nozzleUp.set h false } ∧ t.noted (.point p) ∧
        s.touches t [.pins, .points]) ∧
    (∀ r, (s.point p).sale = some r → r.hose = h →
      ((s.point p).state = .fuelling ∨ (s.point p).state = .slowdown ∨ (s.point p).state = .suspended) →
      ∃ t, exec (.nozzleHang h) s = .next t ∧
        t.points = s.points.set p { (s.point p).stoppedBy r .nozzle s.now with
          nozzles := (s.point p).nozzles.filter (fun k => decide (k ≠ h)) } ∧
        t.pins = { s.pins with nozzleUp := s.pins.nozzleUp.set h false } ∧ t.noted (.point p) ∧
        s.touches t [.pins, .points]) ∧
    (((s.point p).state = .idle ∨ (s.point p).state = .closed ∨ (s.point p).state = .halted ∨
        (s.point p).state = .stopping ∨
        ((s.point p).state = .authorized ∧ (s.point p).lifted ≠ some h) ∨
        ((s.point p).state.saleActive = true ∧ (s.point p).sale.any (fun r => decide (r.hose = h)) = false)) →
      ∃ t, exec (.nozzleHang h) s = .next t ∧
        t.points = s.points.set p { s.point p with
          nozzles := (s.point p).nozzles.filter (fun k => decide (k ≠ h)) } ∧
        t.pins = { s.pins with nozzleUp := s.pins.nozzleUp.set h false } ∧ t.noted (.point p) ∧
        s.touches t [.pins, .points]) ∧
    (∀ e, (s.point p).entry = some e → (s.point p).state = .authorized → (s.point p).nozzles = [h] →
      ∃ t, exec (.nozzleHang h) s = .next t ∧
        t.points = s.points.set p { s.point p with
          nozzles := [],
          reports := { (s.point p).reports with
            cardNotOpen := (s.point p).reports.cardNotOpen && decide (e.link = .card ∧ s.card.state ≠ .opened) } } ∧
        t.pins = { s.pins with nozzleUp := s.pins.nozzleUp.set h false } ∧ t.noted (.point p) ∧
        s.touches t [.pins, .points])

/-- R6, R7, R9: an accepted AUTHORIZE makes or replaces the entry, starts its timer and answers DONE with the point's state;
R63: the preset is stored as given from 1 to 999,000, and clamped with the adjusted mark outside. It evaluates the start
condition: without a nozzle up a standing "card not open" clears when the link no longer needs an open
channel; with one, a grade outside the mask is reported, and when the condition holds the sale starts. Its refusals follow in
the order of its checks. -/
def Obligations.AuthorizeMakesTheEntry : Prop :=
  (∀ (kind : Byte) (v : Nat),
     (kind = 0 → presetOf kind v = some (none, false)) ∧
     (1 ≤ v → v ≤ 999000 → (kind = 1 → presetOf kind v = some (some (.volume v), false)) ∧
       (kind = 2 → presetOf kind v = some (some (.money v), false))) ∧
     (v = 0 → (kind = 1 → presetOf kind v = some (some (.volume 1), true)) ∧
       (kind = 2 → presetOf kind v = some (some (.money 1), true))) ∧
     (999000 < v → (kind = 1 → presetOf kind v = some (some (.volume 999000), true)) ∧
       (kind = 2 → presetOf kind v = some (some (.money 999000), true))) ∧
     (3 ≤ kind.toNat → presetOf kind v = none)) ∧
  (∀ (s : State) (tag : Byte) (a : AuthorizeArgs) (p : Side), sideOf a.point = some p →
     ∀ mask, maskOf a.mask = some mask →
     ∀ preset adjusted, presetOf a.presetKind a.presetValue.toNat = some (preset, adjusted) →
     ∀ link, linkOf a.link = some link →
     s.takes → s.power.state = .run →
     ((s.point p).state = .idle ∨ (s.point p).state = .calling ∨ (s.point p).state = .authorized) →
     (s.point p).stack.length ≤ 1 → (∀ g, maskHas mask g = true → (s.prices.active.get g).isSome = true) →
     ((s.point p).nozzles = [] → ∃ t, exec (.authorize tag a) s = .next t ∧
       t.points = s.points.set p { s.point p with
         entry := some ⟨mask, preset, link, s.prices.generation⟩, state := .authorized,
         authDue := if (s.point p).options.authTimeout = 0 then none
           else some (s.now + (s.point p).options.authTimeout * 1000),
         reports := { (s.point p).reports with
           cardNotOpen := (s.point p).reports.cardNotOpen && decide (link = .card ∧ s.card.state ≠ .opened) } } ∧
       t.replied (doneFrame (.authorize a) tag adjusted [PointState.authorized.code]) ∧ t.noted (.point p) ∧
       s.touches t [.points]) ∧
     (∀ h rest, (s.point p).nozzles = h :: rest → ∀ z, s.hose h = some z →
       ∀ price, s.prices.active.get z.grade = some price →
       (maskHas mask z.grade = false → ∃ t, exec (.authorize tag a) s = .next t ∧
         (t.point p).state = .authorized ∧ (t.point p).entry = some ⟨mask, preset, link, s.prices.generation⟩ ∧
         (t.point p).reports.gradeNotAllowed = true ∧
         t.replied (doneFrame (.authorize a) tag adjusted [PointState.authorized.code]) ∧ t.noted (.point p) ∧
         s.touches t [.points]) ∧
       (maskHas mask z.grade = true → (s.totals h).blocked = false → s.link.up = true →
         (link = .card → s.card.state = .opened) → s.totalsPending p = false → (s.point p).options.runUp ≠ 0 →
         ∃ t, exec (.authorize tag a) s = .next t ∧
           (t.point p).state = .starting ∧ (t.point p).entry = none ∧
           (t.point p).sale = some (SaleRecord.opened p (saleNumber (s.point p).lastNumber (s.point p).stack) h z.grade
             price s.prices.generation ⟨mask, preset, link, s.prices.generation⟩ (s.point p).options.margin) ∧
           t.replied (doneFrame (.authorize a) tag adjusted [PointState.starting.code]) ∧ t.noted (.point p) ∧
           s.touches t [.points, .arbiter, .meters, .heads]))) ∧
  (∀ (s : State) (tag : Byte) (a : AuthorizeArgs), s.takes →
     ((2 ≤ a.point.toNat ∨ a.mask = 0 ∨ 16 ≤ a.mask.toNat ∨ 3 ≤ a.presetKind.toNat ∨ 2 ≤ a.link.toNat) →
       s.answersOnly (.authorize tag a) (refusedFrame (.authorize a) tag .range)) ∧
     (∀ p, sideOf a.point = some p → ∀ mask, maskOf a.mask = some mask → a.presetKind.toNat < 3 → a.link.toNat < 2 →
       (s.power.state ≠ .run → s.answersOnly (.authorize tag a) (refusedFrame (.authorize a) tag .standby)) ∧
       (s.power.state = .run →
         ((s.point p).state ≠ .idle ∧ (s.point p).state ≠ .calling ∧ (s.point p).state ≠ .authorized) →
         s.answersOnly (.authorize tag a) (refusedFrame (.authorize a) tag .state)) ∧
       (s.power.state = .run →
         ((s.point p).state = .idle ∨ (s.point p).state = .calling ∨ (s.point p).state = .authorized) →
         (2 ≤ (s.point p).stack.length →
           s.answersOnly (.authorize tag a) (refusedFrame (.authorize a) tag .stackFull)) ∧
         ((s.point p).stack.length ≤ 1 → (¬ ∀ g, maskHas mask g = true → (s.prices.active.get g).isSome = true) →
           s.answersOnly (.authorize tag a) (refusedFrame (.authorize a) tag .state)))))

/-- R9 to R11, R13, R14, R34, R64 to R66, R103: a lift at a point in AUTHORIZED that meets the start condition starts the
sale. Here the arbiter's list is empty and its stagger interval has passed, so that the motor start is granted at once. -/
def Obligations.LiftStartsTheSale : Prop :=
  ∀ (s : State) (h : Slot) (p : Side), Slot.side h = p → ∀ e, (s.point p).entry = some e → ∀ z, s.hose h = some z →
    ∀ price, s.prices.active.get z.grade = some price → (s.point p).state = .authorized →
    s.power.state = .run → s.pins.nozzleUp.get h = false → (s.point p).nozzles = [] → maskHas e.mask z.grade = true →
    (s.totals h).blocked = false → s.link.up = true → (e.link = .card → s.card.state = .opened) →
    s.totalsPending p = false → s.arbiter.requests = [] → s.staggerPassed = true → (s.point p).options.runUp ≠ 0 →
    ∃ t, exec (.nozzleLift h) s = .next t ∧
      t.points = s.points.set p { s.point p with
        nozzles := [h], state := .starting, entry := none, authDue := none, reports := .clear, testPassed := false,
        lastNumber := saleNumber (s.point p).lastNumber (s.point p).stack,
        sale := some (SaleRecord.opened p (saleNumber (s.point p).lastNumber (s.point p).stack) h z.grade price
          s.prices.generation e (s.point p).options.margin),
        relay := true, runUp := .running (s.now + (s.point p).options.runUp) } ∧
      t.arbiter = { s.arbiter with lastGrant := some s.now } ∧
      t.heads = s.heads.set p { s.head p with test := .allOn s.now } ∧
      t.meters = (s.setMeter z.meter
        { s.meter z.meter with holder := some p, u := 0, limitMark := false, idleErrors := 0 }).meters ∧
      t.pins = { s.pins with nozzleUp := s.pins.nozzleUp.set h true } ∧
      (∀ k, Slot.side k = p → t.mainValve k = false ∧ t.slowValve k = false) ∧
      t.noted (.point p) ∧ t.noted (.meter z.meter) ∧ s.touches t [.pins, .points, .arbiter, .meters, .heads]

/-- R7, R8: CANCEL and the expiry of the authorization timer void the entry of a point in AUTHORIZED; CANCEL is refused STATE
in every other state, and RANGE for no point. -/
def Obligations.CancelAndTimeoutVoidTheEntry : Prop :=
  ∀ (s : State) (tag b : Byte),
    (s.takes → 2 ≤ b.toNat → s.answersOnly (.cancel tag b) (refusedFrame (.cancel b) tag .range)) ∧
    (∀ p, sideOf b = some p →
      (s.takes → (s.point p).state = .authorized → (s.point p).entry.isSome = true →
        ∃ t, exec (.cancel tag b) s = .next t ∧ t.points = s.points.set p ((s.point p).voided .cancel) ∧
          t.replied (doneFrame (.cancel b) tag false []) ∧ t.noted (.point p) ∧ s.touches t [.points]) ∧
      (s.takes → (s.point p).state ≠ .authorized →
        s.answersOnly (.cancel tag b) (refusedFrame (.cancel b) tag .state)) ∧
      (∀ due, (s.point p).authDue = some due → s.running = true → (s.point p).state = .authorized →
        (s.point p).entry.isSome = true →
        ∃ t, exec (.authorizationTimerExpiry p) s = .next t ∧ due ≤ t.now ∧
          t.points = s.points.set p ((s.point p).voided .timeout) ∧ t.noted (.point p) ∧
          (s.advanceTo due).touches t [.points]))

/-! ### Delivery -/

/-- R3, R11, R14, R103: the expiry of the stagger interval grants the first request of the list: its relay goes on, its run-up
interval starts and the grant's moment is recorded. The run-up's end and the segment test's pass: whichever completes the set
moves the point from STARTING to FUELLING and opens both valves of its sale's hose; before that both stay closed. -/
def Obligations.FuellingNeedsGrantTestRunUpAndLink : Prop :=
  (∀ (s : State) (p : Side) (rest : List Side), s.arbiter.requests = p :: rest →
     ∀ last, s.arbiter.lastGrant = some last → (s.point p).options.runUp ≠ 0 →
     ∃ t, exec .staggerIntervalExpiry s = .next t ∧ last + s.arbiter.stagger ≤ t.now ∧
       t.arbiter = { s.arbiter with requests := rest, lastGrant := some t.now } ∧
       t.points = s.points.set p { s.point p with
         relay := true, runUp := .running (t.now + (s.point p).options.runUp) } ∧
       (s.advanceTo (last + s.arbiter.stagger)).changesOnly t [.points, .arbiter]) ∧
  (∀ (s : State) (p : Side) (r : SaleRecord), (s.point p).sale = some r → (s.point p).state = .starting →
     s.power.state = .run → Slot.side r.hose = p →
     (∀ due, (s.point p).runUp = .running due →
       ∃ t, exec (.runUpExpiry p) s = .next t ∧
         t.points = s.points.set p { s.point p with
           runUp := .expired,
           state := if (s.point p).testPassed = true ∧ (r.link = .none ∨ s.card.state = .opened) then .fuelling
             else .starting } ∧
         (t.mainValve r.hose = true ↔ (t.point p).state = .fuelling) ∧
         (t.slowValve r.hose = true ↔ (t.point p).state = .fuelling) ∧
         (s.advanceTo due).touches t [.points]) ∧
     (∀ since, (s.head p).test = .allOff since →
       ∃ t, exec (.segmentTestAllOffEnd p) s = .next t ∧
         t.points = s.points.set p { s.point p with
           testPassed := true,
           state := if (s.point p).runUp = .expired ∧ (r.link = .none ∨ s.card.state = .opened) then .fuelling
             else .starting } ∧
         t.heads = s.heads.set p { s.head p with test := .none } ∧
         (t.mainValve r.hose = true ↔ (t.point p).state = .fuelling) ∧
         (t.slowValve r.hose = true ↔ (t.point p).state = .fuelling) ∧
         (s.advanceTo (since + 500)).touches t [.points, .heads]))

/-- R17, R18: SUSPEND and RESUME. That RESUME judges the point's state before its unlink byte, so that outside SUSPENDED it is
refused STATE whatever that byte is, is the model's reading of R192 (log entry 11). -/
def Obligations.SuspendAndResume : Prop :=
  ∀ (s : State) (tag b : Byte) (p : Side), sideOf b = some p → s.takes →
    (((s.point p).state = .fuelling ∨ (s.point p).state = .slowdown) →
      ∃ t, exec (.suspend tag b) s = .next t ∧
        t.points = s.points.set p { s.point p with
          state := .suspended,
          resume := some (if (s.point p).state = .fuelling then .fuelling else .slowdown),
          suspendDue := if (s.point p).options.suspendLimit = 0 then none
            else some (s.now + (s.point p).options.suspendLimit * 1000) } ∧
        t.replied (doneFrame (.suspend b) tag false []) ∧ t.noted (.point p) ∧ s.touches t [.points]) ∧
    ((s.point p).state = .suspended → s.answersOnly (.suspend tag b) (doneFrame (.suspend b) tag false [])) ∧
    (((s.point p).state ≠ .fuelling ∧ (s.point p).state ≠ .slowdown ∧ (s.point p).state ≠ .suspended) →
      s.answersOnly (.suspend tag b) (refusedFrame (.suspend b) tag .state)) ∧
    ((s.point p).state ≠ .suspended → ∀ u, s.answersOnly (.resume tag b u) (refusedFrame (.resume b u) tag .state)) ∧
    (∀ back, (s.point p).resume = some back → (s.point p).state = .suspended →
      ∀ r, (s.point p).sale = some r →
      (r.link = .card → s.card.state ≠ .opened →
        s.answersOnly (.resume tag b 0) (refusedFrame (.resume b 0) tag .contained)) ∧
      (∀ unlink : Bool, (r.link = .none ∨ s.card.state = .opened ∨ unlink = true) →
        ∃ t, exec (.resume tag b (flagByte unlink)) s = .next t ∧
          t.points = s.points.set p { s.point p with
            state := if back = .fuelling then .fuelling else .slowdown, resume := none, suspendDue := none,
            sale := some (if unlink = true then { r with link := .none, unlinked := true } else r) } ∧
          t.replied (doneFrame (.resume b (flagByte unlink)) tag false []) ∧ t.noted (.point p) ∧
          s.touches t [.points]))

/-- R21, R17: STOP and the expiry of the suspend timer stop a sale in delivery; a second stop cause in STOPPING changes
nothing, and STOP without a sale is refused STATE. -/
def Obligations.StopEntersStopping : Prop :=
  ∀ (s : State) (tag b : Byte) (p : Side), sideOf b = some p → s.takes →
    (∀ r, (s.point p).sale = some r →
      ((s.point p).state = .fuelling ∨ (s.point p).state = .slowdown ∨ (s.point p).state = .suspended) →
      (∃ t, exec (.stop tag b) s = .next t ∧
        t.points = s.points.set p ((s.point p).stoppedBy r .hostStop s.now) ∧
        t.replied (doneFrame (.stop b) tag false []) ∧ t.noted (.point p) ∧ s.touches t [.points]) ∧
      (∀ due, (s.point p).suspendDue = some due →
        ∃ t, exec (.suspendTimerExpiry p) s = .next t ∧
          t.points = s.points.set p ((s.point p).stoppedBy r .suspendLimit t.now) ∧ due ≤ t.now ∧
          t.noted (.point p) ∧ (s.advanceTo due).touches t [.points])) ∧
    ((s.point p).state = .stopping → s.answersOnly (.stop tag b) (doneFrame (.stop b) tag false [])) ∧
    ((s.point p).state.saleActive = false → s.answersOnly (.stop tag b) (refusedFrame (.stop b) tag .state))

/-- R24, R34, R98, R146, R150, R151: a sale of nonzero volume that ends with its settle interval is stacked, settled and
snapshotted, its records are queued snapshot first, its meter is released, and its point leaves the sale-active states. The totals
of its hose take its figures modulo 10^12, its count, its unverified mark and its number, unless they name that number already.
R24 step 6, R169, R167: a part in CLOSING stays there while the other point is sale-active; the sale end that leaves no sale takes it
to STANDBY, with the heads, the heater control, motor drive and the reader off, both points CLOSED and the power record queued. -/
def Obligations.SaleEndStacksAndSettles : Prop :=
  (∀ (s : State) (p : Side) (r : SaleRecord), (s.point p).sale = some r → ∀ x, (s.point p).settle = some x →
    (s.power.state = .run ∨ (s.power.state = .closing ∧ (s.point (Side.other p)).state.saleActive = true)) →
    r.displayed ≠ 0 → s.prices.pending = none →
    s.store.queue = [] → s.store.inFlight = none →
    ∀ m, (s.meter m).holder = some p → (∀ k, k ≠ m → (s.meter k).holder ≠ some p) →
    ∃ t, exec (.settleIntervalExpiry p) s = .next t ∧ x.due ≤ t.now ∧
      t.points = s.points.set p { (s.point p).saleOver
          (if s.holdsHalt (Side.domain p) = true then .halted else if (s.point p).closing = true then .closed
            else if (s.point p).nozzles = [] then .idle else .calling) r.endReason with
        stack := (s.point p).stack ++ [{ r with overrun := r.overruns }] } ∧
      ((s.totals r.hose).last ≠ r.number → t.store.queue = [.totals r.hose] ∧ t.totals r.hose = { s.totals r.hose with
        volume := ((s.totals r.hose).volume + r.displayed) % 1000000000000,
        money := ((s.totals r.hose).money + r.money) % 1000000000000,
        sales := (s.totals r.hose).sales + 1,
        unverified := if r.unverified = true then min 65535 ((s.totals r.hose).unverified + 1)
          else (s.totals r.hose).unverified,
        last := r.number }) ∧
      ((s.totals r.hose).last = r.number → t.store.queue = [] ∧ t.totals r.hose = s.totals r.hose) ∧
      (∀ k, k ≠ r.hose → t.totals k = s.totals k) ∧
      t.store.snapshots = s.store.snapshots.set p (.ended { r with overrun := r.overruns }) ∧
      t.store.dirty = s.store.dirty.set p true ∧
      t.store.inFlight = some ⟨.snapshot p (.ended { r with overrun := r.overruns }), t.now + 1, false⟩ ∧
      t.heads = s.heads.set p { s.head p with lastSale := .figures r.displayed r.money r.unverified, test := .none } ∧
      t.meters = (s.setMeter m { s.meter m with holder := none }).meters ∧
      t.noted (.sale p) ∧ t.noted (.point p) ∧ t.noted (.meter m) ∧
      (s.advanceTo x.due).touches t [.points, .meters, .heads, .store]) ∧
  (∀ (s : State) (p : Side) (r : SaleRecord), (s.point p).sale = some r → ∀ x, (s.point p).settle = some x →
    s.power.state = .closing → (s.point (Side.other p)).state.saleActive = false →
    r.displayed ≠ 0 → s.prices.pending = none →
    s.store.queue = [] → s.store.inFlight = none →
    ∃ t, exec (.settleIntervalExpiry p) s = .next t ∧
      t.power = { (s.advanceTo x.due).power with
        state := .standby, motorDrive := false, stepIndex := 0, wait := none, steadySince := none, field := .standby } ∧
      (∀ q, (t.point q).state = .closed ∧ t.motorRelay q = false ∧ (t.head q).power = false ∧
        (t.head q).heaterEnabled = false) ∧
      t.card.state.powered = false ∧ (t.point p).sale = none ∧ (t.point p).lastEnd = r.endReason ∧
      (t.point p).stack = (s.point p).stack ++ [{ r with overrun := r.overruns }] ∧
      t.store.snapshots = s.store.snapshots.set p (.ended { r with overrun := r.overruns }) ∧
      t.store.inFlight = some ⟨.snapshot p (.ended { r with overrun := r.overruns }), t.now + 1, false⟩ ∧
      t.store.queue = (if (s.totals r.hose).last = r.number then [.power] else [.totals r.hose, .power]) ∧
      t.noted (.sale p) ∧ t.noted (.point p) ∧ t.noted .power ∧
      (s.advanceTo x.due).touches t [.points, .meters, .heads, .card, .power, .store])

/-- R12, R13, R15, R24: a hang of the sale's hose, and STOP, in STARTING before the grant end a sale of 0 cL at once: it is
discarded, its request is withdrawn, its meter is released, its number stays used. -/
def Obligations.SaleOfNothingIsDiscarded : Prop :=
  ∀ (s : State) (p : Side) (r : SaleRecord), (s.point p).sale = some r → (s.point p).state = .starting →
    s.power.state = .run → r.displayed = 0 → s.prices.pending = none → s.arbiter.requests = [p] →
    ∀ m, (s.meter m).holder = some p → (∀ k, k ≠ m → (s.meter k).holder ≠ some p) →
    (Slot.side r.hose = p → s.pins.nozzleUp.get r.hose = true → r.hose ∈ (s.point p).nozzles →
      ∃ t, exec (.nozzleHang r.hose) s = .next t ∧
        t.points = s.points.set p { (s.point p).saleOver
            (if s.holdsHalt (Side.domain p) = true then .halted else if (s.point p).closing = true then .closed
              else if (s.point p).nozzles.filter (fun k => decide (k ≠ r.hose)) = [] then .idle else .calling)
            (some .nozzle) with
          nozzles := (s.point p).nozzles.filter (fun k => decide (k ≠ r.hose)) } ∧
        t.arbiter = { s.arbiter with requests := [] } ∧
        t.meters = (s.setMeter m { s.meter m with holder := none }).meters ∧
        t.heads = s.heads.set p { s.head p with lastSale := .figures 0 r.money r.unverified, test := .none } ∧
        t.noted (.sale p) ∧ t.noted (.point p) ∧ t.noted (.meter m) ∧
        s.touches t [.pins, .points, .arbiter, .meters, .heads]) ∧
    (∀ tag b, sideOf b = some p → s.takes →
      ∃ t, exec (.stop tag b) s = .next t ∧
        t.points = s.points.set p ((s.point p).saleOver
            (if s.holdsHalt (Side.domain p) = true then .halted else if (s.point p).closing = true then .closed
              else if (s.point p).nozzles = [] then .idle else .calling) (some .hostStop)) ∧
        t.arbiter = { s.arbiter with requests := [] } ∧
        t.meters = (s.setMeter m { s.meter m with holder := none }).meters ∧
        t.heads = s.heads.set p { s.head p with lastSale := .figures 0 r.money r.unverified, test := .none } ∧
        t.replied (doneFrame (.stop b) tag false []) ∧ t.noted (.sale p) ∧ t.noted (.point p) ∧ t.noted (.meter m) ∧
        s.touches t [.points, .arbiter, .meters, .heads])

/-- R22: when the run-on timer expires first, RUN_ON_LIMIT, of NOTE severity, goes to the point's capture with the sale
number, and the sale ends. -/
def Obligations.RunOnLimitEndsTheSale : Prop :=
  ∀ (s : State) (p : Side) (r : SaleRecord), (s.point p).sale = some r → ∀ due, (s.point p).runOnDue = some due →
    s.power.state = .run → s.prices.pending = none → (s.point p).closing = false →
    s.holdsHalt (Side.domain p) = false →
    ∃ t, exec (.runOnTimerExpiry p) s = .next t ∧ due ≤ t.now ∧
      (t.point p).sale = none ∧ (t.point p).settle = none ∧ (t.point p).runOnDue = none ∧ (t.point p).relay = false ∧
      (t.point p).state = (if (s.point p).nozzles = [] then .idle else .calling) ∧
      (t.point p).lastEnd = r.endReason ∧ t.point (Side.other p) = s.point (Side.other p) ∧
      t.captures = s.captures.set (Side.domain p)
        ((s.capture (Side.domain p)).arrive ⟨.runOnLimit, .note, none, some r.number⟩) ∧
      t.noted (.sale p) ∧ t.noted (.point p) ∧
      (s.advanceTo due).touches t [.points, .meters, .heads, .captures, .store]

/-! ### Service -/

/-- R26, R8, R15: OPEN POINT and CLOSE POINT with their refusals. -/
def Obligations.OpenPointAndClosePoint : Prop :=
  ∀ (s : State) (tag b : Byte) (p : Side), sideOf b = some p → s.takes →
    (s.power.state ≠ .run → s.answersOnly (.openPoint tag b) (refusedFrame (.openPoint b) tag .standby)) ∧
    (s.power.state = .run → ((s.point p).state ≠ .closed ∨ s.hasHose p = false) →
      s.answersOnly (.openPoint tag b) (refusedFrame (.openPoint b) tag .state)) ∧
    (s.power.state = .run → (s.point p).state = .closed → s.hasHose p = true →
      (s.holdsHalt (Side.domain p) = true →
        s.answersOnly (.openPoint tag b) (refusedFrame (.openPoint b) tag .faultHeld)) ∧
      (s.holdsHalt (Side.domain p) = false →
        ∃ t, exec (.openPoint tag b) s = .next t ∧
          t.points = s.points.set p { s.point p with state := if (s.point p).nozzles = [] then .idle else .calling } ∧
          t.replied (doneFrame (.openPoint b) tag false []) ∧ t.noted (.point p) ∧ s.touches t [.points])) ∧
    ((s.point p).state = .closed → s.answersOnly (.closePoint tag b) (doneFrame (.closePoint b) tag false [])) ∧
    ((s.point p).state.saleActive = true → (s.point p).closing = true →
      s.answersOnly (.closePoint tag b) (doneFrame (.closePoint b) tag false [])) ∧
    ((s.point p).state.saleActive = true → (s.point p).closing = false →
      ∃ t, exec (.closePoint tag b) s = .next t ∧
        t.points = s.points.set p { s.point p with closing := true } ∧
        t.replied (doneFrame (.closePoint b) tag false []) ∧ t.noted (.point p) ∧ s.touches t [.points]) ∧
    (((s.point p).state = .idle ∨ (s.point p).state = .calling ∨ (s.point p).state = .authorized ∨
        (s.point p).state = .halted) →
      ∃ t, exec (.closePoint tag b) s = .next t ∧
        t.points = s.points.set p { s.point p with
          state := .closed, entry := none, relay := false, reports := .clear,
          authDue := if (s.point p).entry.isSome = true then none else (s.point p).authDue,
          lastVoid := if (s.point p).entry.isSome = true then some .close else (s.point p).lastVoid } ∧
        t.replied (doneFrame (.closePoint b) tag false []) ∧ t.noted (.point p) ∧ s.touches t [.points])

/-- R28: RESTART POINT. -/
def Obligations.RestartPointRestarts : Prop :=
  ∀ (s : State) (tag b : Byte) (p : Side), sideOf b = some p → s.takes →
    (s.power.state ≠ .run → s.answersOnly (.restartPoint tag b) (refusedFrame (.restartPoint b) tag .standby)) ∧
    (s.power.state = .run → (s.point p).state ≠ .halted →
      s.answersOnly (.restartPoint tag b) (refusedFrame (.restartPoint b) tag .state)) ∧
    (s.power.state = .run → (s.point p).state = .halted → s.holdsHalt (Side.domain p) = true →
      s.answersOnly (.restartPoint tag b) (refusedFrame (.restartPoint b) tag .faultHeld)) ∧
    (s.power.state = .run → (s.point p).state = .halted → s.holdsHalt (Side.domain p) = false →
      ∃ t, exec (.restartPoint tag b) s = .next t ∧
        t.points = s.points.set p { s.point p with state := if (s.point p).nozzles = [] then .idle else .calling } ∧
        t.replied (doneFrame (.restartPoint b) tag false []) ∧ t.noted (.point p) ∧ s.touches t [.points]) ∧
    (∀ d token, ∃ t, exec (.clearFault tag d token) s = .next t ∧ t.points = s.points)

/-- R25: CLEAR SALE removes the record of that number, wherever it stands; totals and snapshots stay. -/
def Obligations.ClearSaleRemovesTheRecord : Prop :=
  ∀ (s : State) (tag b : Byte) (n : BitVec 16) (p : Side), sideOf b = some p → s.takes →
    (n ∉ (s.point p).stack.map SaleRecord.number →
      s.answersOnly (.clearSale tag b n) (refusedFrame (.clearSale b n) tag .notFound)) ∧
    (n ∈ (s.point p).stack.map SaleRecord.number →
      ∃ t, exec (.clearSale tag b n) s = .next t ∧
        t.points = s.points.set p { s.point p with
          stack := (s.point p).stack.filter (fun r => decide (r.number ≠ n)) } ∧
        t.replied (doneFrame (.clearSale b n) tag false []) ∧ t.noted (.sale p) ∧ s.touches t [.points])

/-! ### Settings, metrology and totals -/

/-- R31, R14, R147: SET POINT OPTIONS stores its clamped values and waits for the settings record; a stagger that has passed
under the new value grants the first request at once. -/
def Obligations.PointOptionsAreStored : Prop :=
  ∀ (s : State) (tag : Byte) (a : PointOptionsArgs), s.takes →
    (2 ≤ a.point.toNat → s.answersOnly (.setPointOptions tag a) (refusedFrame (.setPointOptions a) tag .range)) ∧
    (∀ p, sideOf a.point = some p → ∀ o : PointOptions,
      o = ⟨min 2000 a.margin.toNat, min 3000 a.runUp.toNat, max 500 (min 5000 a.settle.toNat),
           if a.authTimeout = 0 then 0 else max 10 (min 600 a.authTimeout.toNat),
           if a.suspendLimit = 0 then 0 else max 10 (min 600 a.suspendLimit.toNat)⟩ →
      ((s.arbiter.requests = [] ∨ s.arbiter.stagger = min 5000 a.stagger.toNat) →
        ∃ t, exec (.setPointOptions tag a) s = .next t ∧
          t.points = s.points.set p { s.point p with options := o } ∧
          t.arbiter = { s.arbiter with stagger := min 5000 a.stagger.toNat } ∧
          t.awaits 0x0E tag .settings (donePayload (pointOptionsAdjusted a) []) ∧ t.recording .settings ∧
          s.touches t [.points, .arbiter, .store]) ∧
      (∀ q rest, s.arbiter.requests = q :: rest → ∀ last, s.arbiter.lastGrant = some last →
        s.arbiter.stagger ≠ min 5000 a.stagger.toNat →
        ∃ t, exec (.setPointOptions tag a) s = .next t ∧ (t.point p).options = o ∧
          (∀ k, k ≠ p → (t.point k).options = (s.point k).options) ∧
          (last + min 5000 a.stagger.toNat ≤ s.now → (t.point q).relay = true ∧
            (∀ k, k ≠ q → t.point k = if k = p then { s.point p with options := o } else s.point k) ∧
            t.arbiter = ⟨rest, some s.now, min 5000 a.stagger.toNat⟩) ∧
          (s.now < last + min 5000 a.stagger.toNat →
            t.points = s.points.set p { s.point p with options := o } ∧
            t.arbiter = { s.arbiter with stagger := min 5000 a.stagger.toNat }) ∧
          t.awaits 0x0E tag .settings (donePayload (pointOptionsAdjusted a) []) ∧ t.recording .settings ∧
          s.touches t [.points, .arbiter, .store]))

/-- R189, R112, R172, R173, R166, R147: each settings command stores what it carries, and its DONE waits for the settings
record; or it is refused and changes nothing. That an invalid list is refused RANGE in WAKING too is the model's reading of
R173 (log entry 22). That no time of a new schedule arrives in the second in which SET SCHEDULE is taken (`clockEntered` clear)
is the model's choice (log entry 4). -/
def Obligations.SettingsAreStored : Prop :=
  ∀ (s : State) (tag : Byte), s.takes →
    (∀ b : Byte, ∀ timeout, timeout = (if b = 0 then 0 else max 2 (min 120 b.toNat)) →
      ∃ t, exec (.setLinkTimeout tag b) s = .next t ∧
        t.awaits 3 tag .settings (donePayload (decide (timeout ≠ b.toNat)) []) ∧ t.recording .settings ∧
        (s.withLink { s.link with
          timeout := timeout,
          lossDue := if s.lossTimed = false then s.link.lossDue else if timeout = 0 then none
            else some (s.now + timeout * 1000) }).touches t [.store]) ∧
    (∀ a : CardModeArgs,
      (∀ x, cardSettingsOf a = some x → s.card.state = .off → s.card.restartPending = false →
        ∃ t, exec (.cardMode tag a) s = .next t ∧ t.card = { s.card with settings := x } ∧
          t.awaits 0x17 tag .settings (donePayload (cardSettingsAdjusted a) []) ∧ t.recording .settings ∧
          s.touches t [.card, .store]) ∧
      (cardSettingsOf a ≠ none → (s.card.state ≠ .off ∨ s.card.restartPending = true) →
        s.answersOnly (.cardMode tag a) (refusedFrame (.cardMode a) tag .state)) ∧
      (cardSettingsOf a = none → s.answersOnly (.cardMode tag a) (refusedFrame (.cardMode a) tag .range))) ∧
    (∀ (w l : BitVec 32) (f : Byte),
      (∀ x, timeOf w = some x → ∀ y, timeOf l = some y → ∀ lift, flagOf f = some lift → (x = none ∨ x ≠ y) →
        ∃ t, exec (.setSchedule tag w l f) s = .next t ∧
          t.power = { s.power with wakeTime := x, sleepTime := y, wakeOnLift := lift, clockEntered := false } ∧
          t.awaits 0x25 tag .settings (donePayload false []) ∧ t.recording .settings ∧ s.touches t [.power, .store]) ∧
      (((0xFFFFFFFF ≠ w ∧ 86400 ≤ w.toNat) ∨ (0xFFFFFFFF ≠ l ∧ 86400 ≤ l.toNat) ∨ 2 ≤ f.toNat ∨
          (w = l ∧ w ≠ 0xFFFFFFFF)) →
        s.answersOnly (.setSchedule tag w l f) (refusedFrame (.setSchedule w l f) tag .range))) ∧
    (∀ steps : List RawStep,
      (∀ x, wakeTableOf steps = some x → s.power.state ≠ .waking →
        ∃ t, exec (.setWakeSequence tag steps) s = .next t ∧ t.power = { s.power with table := x } ∧
          t.awaits 0x26 tag .settings (donePayload (steps.any fun y => decide (1800 < y.time.toNat)) []) ∧
          t.recording .settings ∧ s.touches t [.power, .store]) ∧
      (wakeTableOf steps ≠ none → s.power.state = .waking →
        s.answersOnly (.setWakeSequence tag steps) (refusedFrame (.setWakeSequence steps) tag .state)) ∧
      (wakeTableOf steps = none →
        s.answersOnly (.setWakeSequence tag steps) (refusedFrame (.setWakeSequence steps) tag .range))) ∧
    (∀ b : Byte,
      (b.toNat < 2 → ∃ t, exec (.setRestorePolicy tag b) s = .next t ∧
        t.power = { s.power with policy := if b = 0 then .hold else .resume } ∧
        t.awaits 0x27 tag .settings (donePayload false []) ∧ t.recording .settings ∧ s.touches t [.power, .store]) ∧
      (2 ≤ b.toNat → s.answersOnly (.setRestorePolicy tag b) (refusedFrame (.setRestorePolicy b) tag .range)))

/-- R53 to R57: with the switch closed and no sale on the point concerned, SET HOSE, SET METER TABLE and SET METER LIMITS
change the working copy, raise the audit counter, and wait for the metrology record; with it open they and SET TOTALS are
refused LOCKED, with values that are not valid RANGE, and during a sale BUSY. That a slot made present with its nozzle up joins
the nozzle list and does not wake the part in STANDBY is the model's reading of R4 and R168 (log entry 24). A slot made absent
leaves the list as if hung; that a CALLING point whose last present slot it was stays in CALLING follows R54's own words against
R4 and R5 (log entry 33). -/
def Obligations.MetrologyIsStored : Prop :=
  ∀ (s : State) (tag : Byte), s.takes →
    (∀ (a : HoseArgs) (b pl fl : Byte) (pts : List RawTablePoint) (v m : BitVec 64),
      s.answersSwitched (.setHose tag a false) (refusedFrame (.setHose a) tag .locked) ∧
      s.answersSwitched (.setMeterTable tag b pts false) (refusedFrame (.setMeterTable b pts) tag .locked) ∧
      s.answersSwitched (.setMeterLimits tag b pl fl false) (refusedFrame (.setMeterLimits b pl fl) tag .locked) ∧
      s.answersSwitched (.setTotals tag b v m false) (refusedFrame (.setTotals b v m) tag .locked)) ∧
    (∀ (b : Byte) (pts : List RawTablePoint),
      ((meterOf b = none ∨ tableOf pts = none) →
        s.answersSwitched (.setMeterTable tag b pts true) (refusedFrame (.setMeterTable b pts) tag .range)) ∧
      (∀ m, meterOf b = some m → ∀ table, tableOf pts = some table →
        (s.meterBusy m = true →
          s.answersSwitched (.setMeterTable tag b pts true) (refusedFrame (.setMeterTable b pts) tag .busy)) ∧
        (s.meterBusy m = false → ∃ t, exec (.setMeterTable tag b pts true) s = .next t ∧
          t.metrology = { s.metrology with data := { s.metrology.data with
            meters := s.metrology.data.meters.set m { s.meterSettings m with table := table },
            audit := s.metrology.data.audit + 1 } } ∧
          t.awaits 0x10 tag .metrology (donePayload false []) ∧ t.recording .metrology ∧
          ((s.meterSettings m).table ≠ table → t.noted (.meter m)) ∧ s.touches t [.pins, .metrology, .store]))) ∧
    (∀ (b pl fl : Byte),
      ((meterOf b = none ∨ pl = 0 ∨ fl = 0 ∨ 100 < fl.toNat) →
        s.answersSwitched (.setMeterLimits tag b pl fl true) (refusedFrame (.setMeterLimits b pl fl) tag .range)) ∧
      (∀ m, meterOf b = some m → pl ≠ 0 → fl ≠ 0 → fl.toNat ≤ 100 →
        (s.meterBusy m = true →
          s.answersSwitched (.setMeterLimits tag b pl fl true) (refusedFrame (.setMeterLimits b pl fl) tag .busy)) ∧
        (s.meterBusy m = false → ∃ t, exec (.setMeterLimits tag b pl fl true) s = .next t ∧
          t.metrology = { s.metrology with data := { s.metrology.data with
            meters := s.metrology.data.meters.set m
              { s.meterSettings m with phaseLimit := pl.toNat, flowLimit := fl.toNat },
            audit := s.metrology.data.audit + 1 } } ∧
          t.awaits 0x11 tag .metrology (donePayload false []) ∧ t.recording .metrology ∧
          (((s.meterSettings m).phaseLimit ≠ pl.toNat ∨ (s.meterSettings m).flowLimit ≠ fl.toNat) → t.noted (.meter m)) ∧
          s.touches t [.pins, .metrology, .store]))) ∧
    (∀ (a : HoseArgs),
      ((slotOf a.slot = none ∨ hoseOf a = none) →
        s.answersSwitched (.setHose tag a true) (refusedFrame (.setHose a) tag .range)) ∧
      (∀ h, slotOf a.slot = some h → ∀ z, hoseOf a = some z →
        (z.all (fun y => s.meterFree h y.meter) = false →
          s.answersSwitched (.setHose tag a true) (refusedFrame (.setHose a) tag .range)) ∧
        (z.all (fun y => s.meterFree h y.meter) = true →
          ((s.point (Slot.side h)).state.saleActive = true →
            s.answersSwitched (.setHose tag a true) (refusedFrame (.setHose a) tag .busy)) ∧
          ((s.point (Slot.side h)).state.saleActive = false → ∃ t, exec (.setHose tag a true) s = .next t ∧
            t.metrology = { s.metrology with data := { s.metrology.data with
              hoses := s.metrology.data.hoses.set h z, audit := s.metrology.data.audit + 1 } } ∧
            t.awaits 0x0F tag .metrology (donePayload false []) ∧ t.recording .metrology ∧
            ((s.hose h).isSome = true → z = none → h ∉ (t.point (Slot.side h)).nozzles) ∧
            (s.hose h = none → z.isSome = true → s.pins.nozzleUp.get h = true → h ∈ (t.point (Slot.side h)).nozzles) ∧
            ((s.point (Slot.side h)).state ≠ .authorized → (s.hose h).isSome = z.isSome → t.points = s.points) ∧
            ((s.hose h).isSome = true → z = none → (s.point (Slot.side h)).state = .calling →
              h ∈ (s.point (Slot.side h)).nozzles →
              ∀ rest, rest = (s.point (Slot.side h)).nozzles.filter (fun k => decide (k ≠ h)) →
              ((∀ k, k ≠ h → Slot.side k = Slot.side h → s.hose k = none) →
                t.points = s.points.set (Slot.side h) { s.point (Slot.side h) with nozzles := rest }) ∧
              ((¬ ∀ k, k ≠ h → Slot.side k = Slot.side h → s.hose k = none) →
                t.points = s.points.set (Slot.side h) { s.point (Slot.side h) with
                  nozzles := rest, state := if rest = [] then .idle else .calling }) ∧
              t.noted (.point (Slot.side h))) ∧
            s.touches t [.pins, .points, .arbiter, .metrology, .meters, .heads, .captures, .store]))))

/-- R155: SET TOTALS. That no sale starts at the command itself, because its record is queued before the point evaluates, is the
model's reading of R155 and R9 (log entry 37). -/
def Obligations.SetTotalsRebasesTheTotals : Prop :=
  ∀ (s : State) (tag b : Byte) (volume money : BitVec 64), s.takes →
    ((8 ≤ b.toNat ∨ 1000000000000 ≤ volume.toNat ∨ 1000000000000 ≤ money.toNat) →
      ∃ t, exec (.setTotals tag b volume money true) s = .next t ∧
        t.replied (refusedFrame (.setTotals b volume money) tag .range) ∧ s.touches t [.pins]) ∧
    (∀ h, slotOf b = some h → volume.toNat < 1000000000000 → money.toNat < 1000000000000 →
      ∃ t, exec (.setTotals tag b volume money true) s = .next t ∧
        t.totals h = { s.totals h with volume := volume.toNat, money := money.toNat,
                                       setCount := (s.totals h).setCount + 1, blocked := false } ∧
        (∀ k, k ≠ h → t.totals k = s.totals k) ∧ t.store.snapshots = s.store.snapshots ∧
        t.awaits 0x1F tag (.totals h) (donePayload false []) ∧ t.recording (.totals h) ∧
        ((s.totals h).blocked = false → t.points = s.points) ∧ s.touches t [.pins, .points, .store])

/-! ### Prices -/

/-- R80 to R86, R88: a PRICE CHANGE whose apply condition holds takes effect at once and waits for the price record; one that
must wait becomes the pending set; NOW is refused BUSY when a point stops it; a change without effect is answered at once; and
the deadline discards the pending set. The set that was pending is superseded. A pending AT_IDLE set is applied at the sale end
that leaves no point to stop it, a pending AT_WAKE set at the entry to WAKING. The generation that an outcome other than APPLIED
refers to is the model's choice (log entry 18). -/
def Obligations.PriceChangeAppliesOrWaits : Prop :=
  ∀ (s : State) (tag : Byte) (x : PriceArgs),
    (∀ entries, priceEntriesOf x = some entries → ∀ mode, priceModeOf x.mode = some mode → s.takes →
      ∀ affected, affected = affectedGrades entries s.prices.active →
      (s.applyHolds affected = false → mode = none →
        s.answersOnly (.priceChange tag x) (refusedFrame (.priceChange x) tag .busy)) ∧
      (s.applyHolds affected = true → affected ≠ 0 → mode ≠ some .atWake →
        ∃ t, exec (.priceChange tag x) s = .next t ∧
          (∀ g, t.prices.active.get g = if entries.get g = none then s.prices.active.get g else entries.get g) ∧
          t.prices.generation = s.prices.generation + 1 ∧ t.prices.pending = none ∧ t.prices.deadlineDue = none ∧
          t.prices.lastOutcome = some ⟨.applied, s.prices.generation + 1⟩ ∧
          t.prices.superseded = (s.prices.superseded || s.prices.pending.isSome) ∧
          (∀ p, ((s.point p).state = .authorized ↔ (s.point p).entry.isSome = true) →
            t.point p = if (s.point p).entry.any (fun e => decide (e.mask &&& affected ≠ 0)) = true
              then (s.point p).voided .price else s.point p) ∧
          t.awaits 0x13 tag .price (donePayload
            (decide (mode = some .atIdle ∧ deadlineOf x.deadline.toNat ≠ x.deadline.toNat))
            (appliedResult s.prices.active (s.prices.generation + 1))) ∧
          t.recording .price ∧ t.noted .price ∧ s.touches t [.points, .prices, .store]) ∧
      (s.applyHolds affected = true → affected = 0 →
        ∃ t, exec (.priceChange tag x) s = .next t ∧
          t.prices = { s.prices with
            pending := none, deadlineDue := if s.prices.pending = none then s.prices.deadlineDue else none,
            superseded := s.prices.superseded || s.prices.pending.isSome,
            lastOutcome := some ⟨.applied, s.prices.generation⟩ } ∧
          t.replied (doneFrame (.priceChange x) tag
            (decide (mode = some .atIdle ∧ deadlineOf x.deadline.toNat ≠ x.deadline.toNat))
            (appliedResult s.prices.active s.prices.generation)) ∧
          t.noted .price ∧ s.touches t [.prices]) ∧
      (∀ m, mode = some m → affected ≠ 0 → (m = .atWake ∨ s.applyHolds affected = false) →
        ∀ deadline, deadline = (if m = .atWake then 0 else deadlineOf x.deadline.toNat) →
        ∃ t, exec (.priceChange tag x) s = .next t ∧
          t.prices = { s.prices with
            pending := some ⟨entries, m, deadline, affected⟩,
            deadlineDue := if deadline = 0 then none else some (s.now + deadline * 1000),
            superseded := s.prices.superseded || s.prices.pending.isSome,
            lastOutcome := some ⟨.accepted, s.prices.generation⟩ } ∧
          t.replied (doneFrame (.priceChange x) tag
            (decide (m = .atIdle ∧ deadline ≠ x.deadline.toNat)) [Config.wireCode .pricePending]) ∧
          t.noted .price ∧ s.touches t [.prices])) ∧
    ((priceEntriesOf x = none ∨ 3 ≤ x.mode.toNat) → s.takes →
      s.answersOnly (.priceChange tag x) (refusedFrame (.priceChange x) tag .range)) ∧
    (∀ due, s.prices.deadlineDue = some due → s.running = true →
      ∃ t, exec .deadlineTimerExpiry s = .next t ∧ due ≤ t.now ∧
        t.prices = { s.prices with pending := none, deadlineDue := none,
                                   lastOutcome := some ⟨.expired, s.prices.generation⟩ } ∧
        t.noted .price ∧ (s.advanceTo due).touches t [.prices]) ∧
    (∀ z, s.prices.pending = some z → ∀ prices, prices = { s.prices with
        active := Vector.ofFn (fun g => if maskHas z.affected g = true then z.entries.get g else s.prices.active.get g),
        generation := s.prices.generation + 1, pending := none, deadlineDue := none,
        lastOutcome := some ⟨.applied, s.prices.generation + 1⟩ } →
      (∀ p, ∀ y, (s.point p).settle = some y → (s.point p).sale.isSome = true → s.power.state = .run →
        z.mode = .atIdle →
        (s.stops z.affected (Side.other p) = false →
          ∃ t, exec (.settleIntervalExpiry p) s = .next t ∧ y.due ≤ t.now ∧ t.prices = prices ∧ t.recording .price ∧
            t.noted .price ∧ (s.advanceTo y.due).touches t [.points, .prices, .meters, .heads, .store]) ∧
        (s.stops z.affected (Side.other p) = true →
          ∃ t, exec (.settleIntervalExpiry p) s = .next t ∧ y.due ≤ t.now ∧ t.prices = s.prices)) ∧
      (s.takes → s.power.state = .standby → s.holdsHalt .supply = false → s.power.table = [] →
        (z.mode = .atWake → ∃ u, exec (.wake tag) s = .next u ∧ u.prices = prices ∧ u.power.state = .run ∧
          u.recording .price ∧ u.noted .price ∧ u.replied (doneFrame .wake tag false []) ∧
          s.touches u [.points, .prices, .heads, .power, .store]) ∧
        (z.mode = .atIdle → ∃ u, exec (.wake tag) s = .next u ∧ u.prices = s.prices ∧ u.power.state = .run)))

/-- R87: CANCEL PRICE CHANGE, and its races with the apply and with the deadline. -/
def Obligations.CancelPriceChangeDiscards : Prop :=
  ∀ (s : State) (tag : Byte), s.takes →
    (∀ x, s.prices.pending = some x →
      ∃ t, exec (.cancelPriceChange tag) s = .next t ∧ t.prices.pending = none ∧ t.prices.deadlineDue = none ∧
        t.prices.lastOutcome.map OutcomeAt.outcome = some .cancelled ∧
        t.prices.active = s.prices.active ∧ t.prices.generation = s.prices.generation ∧
        t.prices.superseded = s.prices.superseded ∧ t.testPending = t ∧
        t.replied (doneFrame .cancelPriceChange tag false (priceSetBytes x.entries ++ [x.mode.code])) ∧
        t.noted .price ∧ s.touches t [.prices]) ∧
    (s.prices.pending = none → s.answersOnly (.cancelPriceChange tag) (refusedFrame .cancelPriceChange tag .notFound)) ∧
    (∀ x, s.prices.pending = some x → x.mode = .atIdle → s.applyHolds x.affected = true →
      s.testPending.prices.pending = none ∧ (s.testPending.takes →
        s.testPending.answersOnly (.cancelPriceChange tag) (refusedFrame .cancelPriceChange tag .notFound))) ∧
    (∀ due, s.prices.deadlineDue = some due → ∃ t, exec .deadlineTimerExpiry s = .next t ∧ t.noted .price ∧
      (t.takes → t.answersOnly (.cancelPriceChange tag) (refusedFrame .cancelPriceChange tag .notFound)))

/-! ### Card channel -/

/-- R117, R119, R122, R123: CARD RESTART, CARD STOP, CARD TAKE and CARD SEND. Width and unit of the remaining time in the reply
of CARD RESTART are the model's choice (log entry 6). -/
def Obligations.CardCommandsAct : Prop :=
  ∀ (s : State) (tag : Byte), s.takes →
    ((s.power.state = .standby ∨ s.power.state = .restore) →
      s.answersOnly (.cardRestart tag) (refusedFrame .cardRestart tag .standby)) ∧
    ((s.power.state = .waking ∨ s.power.state = .run ∨ s.power.state = .closing) → s.waitsFor .readerReady = false →
      ((s.card.state = .starting ∨ s.card.state = .opened) →
        s.answersOnly (.cardRestart tag) (refusedFrame .cardRestart tag .state)) ∧
      ((s.card.state = .off ∨ s.card.state = .contained) → s.pins.tamperOpen = true →
        ∃ t, exec (.cardRestart tag) s = .next t ∧ t.card.state = .contained ∧
          t.card.inbound = [] ∧ t.card.outbound = [] ∧
          t.captures = s.captures.set .card ((s.capture .card).arrive ⟨.tamper, .halt, none, none⟩) ∧
          t.replied (refusedFrame .cardRestart tag .faultHeld) ∧ s.touches t [.card, .captures]) ∧
      ((s.card.state = .off ∨ s.card.state = .contained) → s.pins.tamperOpen = false →
        (s.holdsHalt .card = true → s.answersOnly (.cardRestart tag) (refusedFrame .cardRestart tag .faultHeld)) ∧
        (s.holdsHalt .card = false →
          (s.card.restartPending = false → s.card.lastPowerOff + 2000 ≤ s.now →
            ∃ t, exec (.cardRestart tag) s = .next t ∧
              t.card = { s.card with state := .starting, run := 0, reception := .outside,
                                     readyDue := some (s.now + s.card.settings.ready * 1000) } ∧
              t.replied (doneFrame .cardRestart tag false [0, 0]) ∧ t.noted .card ∧ s.touches t [.card]) ∧
          ((s.card.restartPending = true ∨ s.now < s.card.lastPowerOff + 2000) →
            ∃ t, exec (.cardRestart tag) s = .next t ∧ t.card = { s.card with restartPending := true } ∧
              t.replied (doneFrame .cardRestart tag false (le 2 (s.card.lastPowerOff + 2000 - s.now))) ∧
              s.touches t [.card])))) ∧
    (s.waitsFor .readerReady = false →
      ∃ t, exec (.cardStop tag) s = .next t ∧
        (s.card.state = .off → t.card = { s.card with restartPending := false } ∧ t.points = s.points) ∧
        (s.card.state ≠ .off → t.noted .card ∧
          t.card = { s.card with
            state := .off, restartPending := false, readyDue := none, reception := .outside, outbound := [],
            transmitting := none, txGapDue := none,
            lastPowerOff := if s.card.state = .contained then s.card.lastPowerOff else s.now }) ∧
        (s.card.state ≠ .opened → t.points = s.points) ∧
        (∀ p, ∀ r, (s.point p).sale = some r → r.link = .card → s.card.state = .opened → (s.point p).state = .fuelling →
          (t.point p).state = .suspended ∧ (t.point p).resume = some .fuelling ∧ t.noted (.point p)) ∧
        t.replied (doneFrame .cardStop tag false []) ∧ s.touches t [.points, .card]) ∧
    (∀ f rest, s.card.inbound = f :: rest →
      ∃ t, exec (.cardTake tag) s = .next t ∧ t.card = { s.card with inbound := rest } ∧
        t.replied ⟨byte (0xE0 + 8 * f.status.code.toNat + rest.length), tag, f.content, []⟩ ∧
        s.touches t [.card]) ∧
    (s.card.inbound = [] →
      (s.card.state ≠ .contained → s.answersOnly (.cardTake tag) (doneFrame .cardTake tag false [4, 0])) ∧
      (s.card.state = .contained → s.card.settings.reply = .empty →
        s.answersOnly (.cardTake tag) (doneFrame .cardTake tag false [5, 0])) ∧
      (s.card.state = .contained → s.card.settings.reply = .refuse →
        s.answersOnly (.cardTake tag) (refusedFrame .cardTake tag .contained))) ∧
    (∀ content : List Byte,
      (content = [] → s.answersOnly (.cardSend tag content) (refusedFrame (.cardSend content) tag .length)) ∧
      (content ≠ [] →
        (s.card.state = .contained →
          s.answersOnly (.cardSend tag content) (refusedFrame (.cardSend content) tag .contained)) ∧
        (s.card.state = .off → s.answersOnly (.cardSend tag content) (refusedFrame (.cardSend content) tag .state)) ∧
        ((s.card.state = .starting ∨ s.card.state = .opened) →
          ((4 ≤ s.card.outbound.length ∨ 512 < s.card.outboundCost + content.length + 2) →
            s.answersOnly (.cardSend tag content) (refusedFrame (.cardSend content) tag .busy)) ∧
          (s.card.outbound.length < 4 → s.card.outboundCost + content.length + 2 ≤ 512 →
            ∃ t, exec (.cardSend tag content) s = .next t ∧
              t.card = { s.card with
                outbound := s.card.outbound ++ [content],
                transmitting := if s.card.transmitting = none ∧ s.card.txGapDue = none
                  then some (s.card.settings.mode.lineCharacters ((s.card.outbound ++ [content]).headD []))
                  else s.card.transmitting } ∧
              t.replied (doneFrame (.cardSend content) tag false []) ∧ s.touches t [.card]))))

/-- R111, R113 to R115, R117, R121, R124 to R127: what a byte, a line error, a break, the receive gap, the end of the off-delay,
the end of a transmitted frame and the end of the gap behind it do to the card channel, with its bad-frame run short of 3. That
a line error keeps a waiting escape, that a start byte after a start byte counts as a bad frame, and that 251 or 252 received
bytes are cut to 250 at a break or a start byte, are the model's reading (log entry 8). -/
def Obligations.CardEventsAct : Prop :=
  ∀ (s : State) (b : Byte), s.waitsFor .readerReady = false → s.running = true →
    ((s.card.state = .off ∨ s.card.state = .contained) → exec (.cardByteReceived b) s = .next s ∧
      exec .cardLineError s = .next s ∧ exec .cardBreak s = .next s ∧ exec .cardGapExpiry s = .next s) ∧
    ((s.card.state = .starting ∨ s.card.state = .opened) →
      (s.card.settings.mode = .framed → s.card.reception = .outside → b ≠ 0xF0 →
        exec (.cardByteReceived b) s = .next (s.withCard { s.card with rxLast := s.now })) ∧
      (s.card.settings.mode = .framed → s.card.reception = .outside → s.card.inbound.length < 8 →
        exec (.cardByteReceived 0xF0) s =
          .next (s.withCard { s.card with rxLast := s.now, reception := .inside [] false false })) ∧
      (s.card.settings.mode = .framed → s.card.reception = .outside → 8 ≤ s.card.inbound.length →
        ∃ t, exec (.cardByteReceived 0xF0) s = .next t ∧
          t.card = { s.card with rxLast := s.now, reception := .discarding } ∧
          t.captures = s.captures.set .card ((s.capture .card).arrive ⟨.ringOverflow, .fault, none, none⟩) ∧
          s.touches t [.card, .captures]) ∧
      (s.card.reception = .discarding →
        ((s.card.settings.mode = .gap ∨ (b ≠ 0xF0 ∧ b ≠ 0xF1)) →
          exec (.cardByteReceived b) s = .next (s.withCard { s.card with rxLast := s.now })) ∧
        (s.card.settings.mode = .framed → exec (.cardByteReceived 0xF1) s =
          .next (s.withCard { s.card with rxLast := s.now, reception := .outside })) ∧
        (s.card.settings.mode = .gap → ∃ t, exec .cardGapExpiry s = .next t ∧
          s.card.rxLast + s.card.settings.gap ≤ t.now ∧ t.card = { s.card with reception := .outside } ∧
          (s.advanceTo (s.card.rxLast + s.card.settings.gap)).changesOnly t [.card])) ∧
      ((s.card.reception = .discarding ∨ (s.card.reception = .outside ∧ s.card.settings.mode = .framed)) →
        (s.card.settings.mode = .framed ∨ s.card.state = .starting) →
        ∃ t, exec .cardLineError s = .next t ∧ t.card = { s.card with rxLast := s.now } ∧
          t.captures = s.captures.set .card ((s.capture .card).arrive ⟨.lineError, .note, none, none⟩) ∧
          s.touches t [.card, .captures]) ∧
      (∀ bytes faulty escape, s.card.reception = .inside bytes faulty escape →
        (bytes.length + 3 ≤ s.card.inboundFree →
          (s.card.settings.mode = .framed → bytes.length < 252 → b ≠ 0xF0 → b ≠ 0xF1 → (b ≠ 0xF2 ∨ escape = true) →
            exec (.cardByteReceived b) s = .next (s.withCard { s.card with
              rxLast := s.now,
              reception := .inside (bytes ++ [if escape = true then b ^^^ 0x20 else b]) faulty false })) ∧
          (s.card.settings.mode = .gap → bytes.length < 250 →
            exec (.cardByteReceived b) s = .next (s.withCard { s.card with
              rxLast := s.now, reception := .inside (bytes ++ [b]) faulty false }))) ∧
        (s.card.inboundFree < bytes.length + 3 →
          bytes.length < (if s.card.settings.mode = .framed then 252 else 250) →
          (s.card.settings.mode = .gap ∨ (b ≠ 0xF0 ∧ b ≠ 0xF1 ∧ (b ≠ 0xF2 ∨ escape = true))) →
          ∃ t, exec (.cardByteReceived b) s = .next t ∧
            t.card = { s.card with
              rxLast := s.now, reception := .discarding,
              inbound := if bytes = [] then s.card.inbound else s.card.inbound ++ [⟨bytes.take 250, .truncated⟩] } ∧
            t.captures = s.captures.set .card ((s.capture .card).arrive ⟨.ringOverflow, .fault, none, none⟩) ∧
            (bytes ≠ [] → t.noted .card) ∧ s.touches t [.card, .captures]) ∧
        ((if s.card.settings.mode = .framed then 252 else 250) ≤ bytes.length → s.card.run < 2 →
          (s.card.settings.mode = .gap ∨ (b ≠ 0xF0 ∧ b ≠ 0xF1 ∧ (b ≠ 0xF2 ∨ escape = true))) →
          ∃ t, exec (.cardByteReceived b) s = .next t ∧
            t.card = { s.card with
              rxLast := s.now, reception := .discarding, inbound := s.card.inbound ++ [⟨bytes.take 250, .truncated⟩],
              run := if s.card.state = .opened then s.card.run + 1 else s.card.run } ∧
            t.noted .card ∧ s.touches t [.card]) ∧
        (s.card.settings.mode = .framed → s.card.run < 2 → ∀ inbound,
          inbound = (if bytes = [] then s.card.inbound else s.card.inbound ++ [⟨bytes.take 250, .check⟩]) →
          inbound.length < 8 →
          ∃ t, exec (.cardByteReceived 0xF0) s = .next t ∧
            t.card = { s.card with
              rxLast := s.now, reception := .inside [] false false, inbound := inbound,
              run := if s.card.state = .opened then s.card.run + 1 else s.card.run } ∧
            t.captures = (if s.card.state = .opened then s.captures.set .card
              ((s.capture .card).arrive ⟨.frameCheck, .fault, none, none⟩) else s.captures) ∧
            (bytes ≠ [] → t.noted .card) ∧ s.touches t [.card, .captures]) ∧
        (s.card.settings.mode = .framed → bytes = [] → faulty = false → escape = false →
          exec (.cardByteReceived 0xF1) s =
            .next (s.withCard { s.card with rxLast := s.now, reception := .outside })) ∧
        (s.card.settings.mode = .framed → bytes ≠ [] → s.card.run < 2 → ∀ content,
          content = (if bytes.length ≤ 2 then bytes else bytes.take (bytes.length - 2)) →
          (bytes.length ≤ 2 ∨ faulty = true ∨ escape = true ∨ crcBytes content ≠ bytes.drop (bytes.length - 2)) →
          ∃ t, exec (.cardByteReceived 0xF1) s = .next t ∧
            t.card = { s.card with
              rxLast := s.now, reception := .outside, inbound := s.card.inbound ++ [⟨content.take 250, .check⟩],
              run := if s.card.state = .opened then s.card.run + 1 else s.card.run } ∧
            t.captures = (if s.card.state = .opened then s.captures.set .card
              ((s.capture .card).arrive ⟨.frameCheck, .fault, none, none⟩) else s.captures) ∧
            t.noted .card ∧ s.touches t [.card, .captures]) ∧
        ((s.card.settings.mode = .framed ∨ s.card.state = .starting) →
          ∃ t, exec .cardLineError s = .next t ∧
            t.card = { s.card with rxLast := s.now, reception := .inside bytes true escape } ∧
            t.captures = s.captures.set .card ((s.capture .card).arrive ⟨.lineError, .note, none, none⟩) ∧
            s.touches t [.card, .captures]) ∧
        (∃ t, exec .cardBreak s = .next t ∧
          t.card = { s.card with
            reception := .outside,
            inbound := if bytes = [] then s.card.inbound else s.card.inbound ++ [⟨bytes.take 250, .abort⟩] } ∧
          t.captures = s.captures.set .card ((s.capture .card).arrive ⟨.cardBreak, .note, none, none⟩) ∧
          s.touches t [.card, .captures]) ∧
        (s.card.settings.mode = .gap → s.card.state = .opened → faulty = false → bytes ≠ [] → bytes.length ≤ 250 →
          ∃ t, exec .cardGapExpiry s = .next t ∧ s.card.rxLast + s.card.settings.gap ≤ t.now ∧
            t.card = { s.card with reception := .outside, inbound := s.card.inbound ++ [⟨bytes, .ok⟩], run := 0 } ∧
            t.noted .card ∧ (s.advanceTo (s.card.rxLast + s.card.settings.gap)).touches t [.card])) ∧
      (∀ line, s.card.transmitting = some line →
        ∃ t, exec .cardFrameSent s = .next t ∧ s.changesOnly t [.card] ∧
          (s.card.settings.mode = .gap → t.card = { s.card with
            outbound := s.card.outbound.tail, transmitting := none,
            txGapDue := some (s.now + s.card.settings.gap) }) ∧
          (s.card.settings.mode = .framed → t.card = { s.card with
            outbound := s.card.outbound.tail, txGapDue := none,
            transmitting := s.card.outbound.tail.head?.map CardMode.framed.lineCharacters })) ∧
      (∀ due, s.card.txGapDue = some due → s.card.transmitting = none →
        ∃ t, exec .cardTxGapElapsed s = .next t ∧ due ≤ t.now ∧
          t.card = { s.card with
            txGapDue := none, transmitting := s.card.outbound.head?.map s.card.settings.mode.lineCharacters } ∧
          (s.advanceTo due).changesOnly t [.card])) ∧
    (s.card.restartPending = true →
      ∃ t, exec .restartOffDelayElapsed s = .next t ∧ s.card.lastPowerOff + 2000 ≤ t.now ∧
        t.card = { s.card with state := .starting, restartPending := false, run := 0, reception := .outside,
                               readyDue := some (t.now + s.card.settings.ready * 1000) } ∧
        t.noted .card ∧ (s.advanceTo (s.card.lastPowerOff + 2000)).touches t [.card])

/-- R114, R117 to R119, R125, R128, R129: a ready timeout, a tamper event and a line error in GAP mode contain the channel. A
frame in reception closes ABORT into the ring, complete frames stay, nothing stays in reception, in transmission or in the
outbound ring, the ready timer and a pending restart are stopped, reader power goes off and its moment is recorded, and the fault
goes to the CARD capture with HALT severity. A tamper event then empties the inbound ring too; in CONTAINED it cancels a pending
restart and empties both rings, and the rest of the channel is as the containment left it. A departure from OPEN reaches the
points as card loss. A closing tamper input only changes the reading. That a frame of 251 or 252 received bytes is cut to 250, and
what a tamper event does in CONTAINED, are the model's reading (log entries 8 and 32). -/
def Obligations.ContainmentStopsTheReader : Prop :=
  ∀ (s : State), s.waitsFor .readerReady = false →
    (∀ due, s.card.readyDue = some due → s.card.state = .starting → s.running = true →
      ∃ t, exec .readyTimerExpiry s = .next t ∧ due ≤ t.now ∧
        t.card = { s.card.cutFrom t.now with inbound := s.card.inboundAborted } ∧
        t.captures = s.captures.set .card ((s.capture .card).arrive ⟨.readyTimeout, .halt, none, none⟩) ∧
        t.noted .card ∧ t.noted (.fault .card) ∧ (s.advanceTo due).touches t [.card, .captures]) ∧
    (s.card.state = .opened → s.card.settings.mode = .gap → s.running = true →
      (s.card.reception = .outside → s.card.inbound.length < 8) →
      ∃ t, exec .cardLineError s = .next t ∧
        t.card = { s.card.cutFrom s.now with inbound := s.card.inboundAborted, rxLast := s.now } ∧
        (∀ p, s.cardLossReaches t p) ∧
        t.captures = s.captures.set .card ((s.capture .card).arrive ⟨.lineError, .halt, none, none⟩) ∧
        t.noted .card ∧ t.noted (.fault .card) ∧ s.touches t [.points, .card, .captures]) ∧
    (s.watching = true → s.pins.tamperOpen = false →
      ∃ t, exec .tamper s = .next t ∧ t.pins = { s.pins with tamperOpen := true } ∧
        (s.card.state ≠ .contained → t.card = { s.card.cutFrom s.now with inbound := [], tamperOpen := true }) ∧
        (s.card.state = .contained →
          t.card = { s.card with restartPending := false, inbound := [], outbound := [], tamperOpen := true }) ∧
        (s.card.state ≠ .opened → t.points = s.points) ∧
        (s.card.state = .opened → s.running = true → ∀ p, s.cardLossReaches t p) ∧
        t.captures = s.captures.set .card ((s.capture .card).arrive ⟨.tamper, .halt, none, none⟩) ∧
        (s.running = true → t.noted .card ∧ t.noted (.fault .card)) ∧
        s.touches t [.pins, .points, .card, .captures]) ∧
    (∃ t, exec .tamperInputClosed s = .next t ∧ t.pins = { s.pins with tamperOpen := false } ∧
      t.card = (if s.watching = true then { s.card with tamperOpen := false } else s.card) ∧
      s.changesOnly t [.pins, .card]) ∧
    (s.pins.tamperOpen = true → exec .tamper s = .next s) ∧
    (s.watching = false → exec .tamper s = .next (s.withPins { s.pins with tamperOpen := true }))

/-- R11, R20, R114, R118, R127: the first frame that closes OK takes a STARTING channel to OPEN, from its end byte in FRAMED
mode and from its gap in GAP mode: the frame is in the ring, the ready timer stops, and both points look again, so that an
AUTHORIZED point whose condition now holds starts its sale, a standing "card not open" clears, and a held STARTING enters
FUELLING. In OPEN the third bad frame in succession raises FRAME_CHECK and CHECK_RUN and contains the channel, with the frame in
the ring. -/
def Obligations.FrameCloseMovesTheChannel : Prop :=
  ∀ (s : State), s.waitsFor .readerReady = false → s.running = true →
    ∀ bytes escape, s.card.reception = .inside bytes false escape →
    (s.card.state = .starting → ∀ i due content,
      ((s.card.settings.mode = .framed ∧ i = .cardByteReceived 0xF1 ∧ due = s.now ∧ escape = false ∧ 3 ≤ bytes.length ∧
          content = bytes.take (bytes.length - 2) ∧ crcBytes content = bytes.drop (bytes.length - 2)) ∨
        (s.card.settings.mode = .gap ∧ i = .cardGapExpiry ∧ due = s.card.rxLast + s.card.settings.gap ∧ bytes ≠ [] ∧
          content = bytes)) →
      content.length ≤ 250 →
      ∃ t, exec i s = .next t ∧ due ≤ t.now ∧
        t.card = { s.card with
          state := .opened, readyDue := none, reception := .outside, inbound := s.card.inbound ++ [⟨content, .ok⟩],
          rxLast := if s.card.settings.mode = .framed then s.now else s.card.rxLast } ∧
        t.noted .card ∧
        (∀ p, (s.point p).state ≠ .authorized → (s.point p).state ≠ .starting → t.point p = s.point p) ∧
        (∀ p, ∀ r, (s.point p).sale = some r → (s.point p).state = .starting → (s.point p).testPassed = true →
          (s.point p).runUp = .expired → t.point p = { s.point p with state := .fuelling } ∧ t.noted (.point p)) ∧
        (∀ p, (s.point p).state = .authorized → (s.point p).entry.isSome = true → (s.point p).nozzles = [] →
          t.point p = { s.point p with reports := { (s.point p).reports with cardNotOpen := false } }) ∧
        (∀ p, ∀ e, (s.point p).entry = some e → ∀ h, (s.point p).lifted = some h → ∀ z, s.hose h = some z →
          ∀ price, s.prices.active.get z.grade = some price → (s.point p).state = .authorized →
          maskHas e.mask z.grade = true → (s.totals h).blocked = false → s.link.up = true → s.totalsPending p = false →
          (s.point p).options.runUp ≠ 0 →
          (t.point p).state = .starting ∧ (t.point p).entry = none ∧
          (t.point p).sale = some (SaleRecord.opened p (saleNumber (s.point p).lastNumber (s.point p).stack) h z.grade
            price s.prices.generation e (s.point p).options.margin) ∧ t.noted (.point p)) ∧
        (if s.card.settings.mode = .framed then s else s.advanceTo due).touches t [.points, .arbiter, .meters, .heads, .card]) ∧
    (s.card.state = .opened → s.card.settings.mode = .framed → s.card.run = 2 → bytes ≠ [] → ∀ content,
      content = (if bytes.length ≤ 2 then bytes else bytes.take (bytes.length - 2)) →
      (bytes.length ≤ 2 ∨ escape = true ∨ crcBytes content ≠ bytes.drop (bytes.length - 2)) →
      ∃ t, exec (.cardByteReceived 0xF1) s = .next t ∧
        t.card = { s.card.cutFrom s.now with
          rxLast := s.now, run := 3, inbound := s.card.inbound ++ [⟨content.take 250, .check⟩] } ∧
        (∀ p, s.cardLossReaches t p) ∧
        t.captures = s.captures.set .card (((s.capture .card).arrive ⟨.frameCheck, .fault, none, none⟩).arrive
          ⟨.checkRun, .halt, none, none⟩) ∧
        t.noted .card ∧ t.noted (.fault .card) ∧ s.touches t [.points, .card, .captures])

/-! ### Power -/

/-- R167 to R172, R179: WAKE, SLEEP and SET CLOCK, and the arrival of the scheduled times. That SET CLOCK begins a whole second,
and an arrival is used up once, is the model's choice (log entry 4). -/
def Obligations.PowerCommandsAct : Prop :=
  ∀ (s : State) (tag : Byte),
    (s.takes → s.power.state = .standby →
      (s.holdsHalt .supply = true → s.answersOnly (.wake tag) (refusedFrame .wake tag .faultHeld)) ∧
      (s.holdsHalt .supply = false → s.prices.pending = none →
        (s.power.table = [] →
          ∃ t, exec (.wake tag) s = .next t ∧
            t.power = { s.power with state := .run, motorDrive := true, stepIndex := 0, wait := none, steadySince := none,
                                     aborts := 0, field := .run } ∧
            (∀ p, (t.head p).power = true ∧ (t.head p).heaterEnabled = true) ∧ t.recording .power ∧
            t.replied (doneFrame .wake tag false []) ∧ t.noted .power ∧ s.touches t [.power, .heads, .store]) ∧
        (∀ x rest, s.power.table = x :: rest → x.action = .heater .a → x.wait = .delay → x.time ≠ 0 →
          ∃ t, exec (.wake tag) s = .next t ∧
            t.power = { s.power with state := .waking, stepIndex := 1, steadySince := none,
                                     wait := some ⟨.delay, s.now + x.time * 1000⟩ } ∧
            t.heads = s.heads.set .a { s.head .a with heaterEnabled := true } ∧
            t.replied (doneFrame .wake tag false []) ∧ t.noted .power ∧ s.touches t [.power, .heads]))) ∧
    (s.takes → (s.power.state = .waking ∨ s.power.state = .run) →
      s.answersOnly (.wake tag) (doneFrame .wake tag false [])) ∧
    (s.takes → (s.power.state = .restore ∨ s.power.state = .closing) →
      s.answersOnly (.wake tag) (refusedFrame .wake tag .state)) ∧
    (s.takes → (s.power.state = .waking ∨ (s.power.state = .run ∧ s.noSale = true)) →
      ∃ t, exec (.sleep tag) s = .next t ∧ t.power.state = .standby ∧ t.power.motorDrive = false ∧
        t.power.wait = none ∧ t.power.steadySince = none ∧ t.card.state = .off ∧
        (∀ p, (t.point p).state = .closed ∧ (t.head p).power = false ∧ (t.head p).heaterEnabled = false) ∧
        t.recording .power ∧ t.replied (doneFrame .sleep tag false []) ∧ t.noted .power ∧
        s.touches t [.points, .heads, .card, .power, .store]) ∧
    (s.takes → s.power.state = .run → s.noSale = false →
      ∃ t, exec (.sleep tag) s = .next t ∧ t.power = { s.power with state := .closing } ∧
        (∀ p, (s.point p).state.saleActive = true → t.point p = { s.point p with closing := true }) ∧
        (∀ p, (s.point p).state.saleActive = false → (t.point p).state = .closed ∧
          ((s.point p).state ≠ .closed → (t.point p).entry = none)) ∧
        t.replied (doneFrame .sleep tag false []) ∧ t.noted .power ∧ s.touches t [.points, .power]) ∧
    (s.takes → (s.power.state = .standby ∨ s.power.state = .closing) →
      s.answersOnly (.sleep tag) (doneFrame .sleep tag false [])) ∧
    (s.takes → s.power.state = .restore → s.answersOnly (.sleep tag) (refusedFrame .sleep tag .state)) ∧
    (s.takes → ∀ v : BitVec 32,
      (v.toNat < 86400 → ∃ t, exec (.setClock tag v) s = .next t ∧
        t.power = { s.power with clock := v.toNat, clockMs := 0, clockEntered := false, clockValid := true } ∧
        t.replied (doneFrame (.setClock v) tag false []) ∧ t.noted .power ∧ s.touches t [.power]) ∧
      (86400 ≤ v.toNat → s.answersOnly (.setClock tag v) (refusedFrame (.setClock v) tag .range))) ∧
    (s.power.clockValid = true → s.power.clock < 86400 → s.power.clockMs < 1000 →
      (∀ w, s.power.wakeTime = some w → s.power.state = .standby → s.holdsHalt .supply = false →
        s.prices.pending = none → s.power.table = [] → w < 86400 → s.power.clock ≠ w →
        ∃ t, exec .scheduledWakeTime s = .next t ∧ t.power.state = .run ∧ t.power.clock = w ∧ t.power.clockMs = 0 ∧
          t.noted .power ∧ s.changesOnly t [.now, .power, .heads, .store, .link]) ∧
      (∀ l, s.power.sleepTime = some l → s.power.state = .run → s.noSale = true → l < 86400 → s.power.clock ≠ l →
        ∃ t, exec .scheduledSleepTime s = .next t ∧ t.power.state = .standby ∧ t.power.clock = l ∧ t.power.clockMs = 0 ∧
          t.noted .power ∧ s.changesOnly t [.now, .points, .heads, .card, .power, .store, .link]))

/-- R105 to R107, R142, R174 to R177: how the waits of the wake sequence end. A DELAY and an unbroken steady interval complete
their step, a warm head completes HEAD_WARM, the channel's entry to OPEN completes READER_READY, and a step that times out or
ends unready goes by its outcome; the second aborted steady wait raises SUPPLY_UNSTEADY. In the first clauses the step is the last
of the table; when another follows, it begins at that event. Outside such a wait a warm input changes its head's reading alone: the
heater follows it, and a warm reading clears the cold mark. -/
def Obligations.WakeWaitsEnd : Prop :=
  (∀ (s : State) (x : WakeStep), s.power.table = [x] → s.power.stepIndex = 1 → s.power.state = .waking →
    ∀ w, s.power.wait = some w → w.wait = x.wait →
      (x.wait = .delay →
        ∃ t, exec .wakeWaitTimerExpiry s = .next t ∧ w.due ≤ t.now ∧ t.power.state = .run ∧ t.power.wait = none ∧
          t.noted .power ∧ (s.advanceTo w.due).touches t [.heads, .power, .store]) ∧
      (x.wait = .supplySteady → ∀ since, s.power.steadySince = some since →
        ∃ t, exec .steadyIntervalComplete s = .next t ∧ since + 2000 ≤ t.now ∧ t.power.state = .run ∧
          t.power.wait = none ∧ t.power.steadySince = none ∧ t.power.aborts = 0 ∧ t.noted .power ∧
          (s.advanceTo (since + 2000)).touches t [.heads, .power, .store]) ∧
      (∀ p, x.wait = .headWarm p →
        ∃ t, exec (.warmInputChange p true) s = .next t ∧ t.power.state = .run ∧ t.power.wait = none ∧
          (t.head p).warm = true ∧ (t.head p).coldMark = false ∧ (t.head p).heater = false ∧ t.noted .power ∧
          s.touches t [.pins, .heads, .power, .store]) ∧
      (x.wait ≠ .delay → x.outcome = .goOn →
        ∃ t, exec .wakeWaitTimerExpiry s = .next t ∧ t.power.state = .run ∧
          t.captures = s.captures.set .supply ((s.capture .supply).arrive ⟨.sequenceTimeout, .note, some (.step 1), none⟩) ∧
          (s.advanceTo w.due).touches t [.heads, .captures, .power, .store]) ∧
      (x.wait ≠ .delay → x.outcome = .degrade →
        ∃ t, exec .wakeWaitTimerExpiry s = .next t ∧ t.power.state = .run ∧
          t.captures = s.captures.set .supply ((s.capture .supply).arrive ⟨.sequenceTimeout, .fault, some (.step 1), none⟩) ∧
          (∀ p, x.wait = .headWarm p → (s.head p).warm = false → (t.head p).coldMark = true) ∧
          (s.advanceTo w.due).touches t [.heads, .captures, .power, .store]) ∧
      (x.wait ≠ .delay → x.outcome = .abort → x.wait ≠ .supplySteady →
        ∃ t, exec .wakeWaitTimerExpiry s = .next t ∧ t.power.state = .standby ∧ t.power.aborts = s.power.aborts ∧
          t.captures = s.captures.set .supply ((s.capture .supply).arrive ⟨.sequenceAbort, .fault, some (.step 1), none⟩) ∧
          (s.advanceTo w.due).touches t [.points, .heads, .card, .captures, .power, .store]) ∧
      (x.wait = .supplySteady → x.outcome = .abort →
        (s.power.aborts = 0 →
          ∃ t, exec .wakeWaitTimerExpiry s = .next t ∧ t.power.state = .standby ∧ t.power.aborts = 1 ∧
            t.captures = s.captures.set .supply ((s.capture .supply).arrive ⟨.sequenceAbort, .fault, some (.step 1), none⟩) ∧
            (s.advanceTo w.due).touches t [.points, .heads, .card, .captures, .power, .store]) ∧
        (s.power.aborts = 1 →
          ∃ t, exec .wakeWaitTimerExpiry s = .next t ∧ t.power.state = .standby ∧ t.power.aborts = 2 ∧
            t.captures = s.captures.set .supply (((s.capture .supply).arrive
              ⟨.sequenceAbort, .fault, some (.step 1), none⟩).arrive ⟨.supplyUnsteady, .halt, some (.step 1), none⟩) ∧
            t.holdsHalt .supply = true ∧
            (s.advanceTo w.due).touches t [.points, .heads, .card, .captures, .power, .store])) ∧
      (x.wait = .readerReady → s.card.state = .starting →
        (∀ bytes escape, s.card.reception = .inside bytes false escape → s.card.settings.mode = .gap → bytes ≠ [] →
          ∃ t, exec .cardGapExpiry s = .next t ∧ t.card.state = .opened ∧ t.power.state = .run ∧ t.power.wait = none ∧
            t.noted .power ∧ t.noted .card ∧ (s.advanceTo (s.card.rxLast + s.card.settings.gap)).touches t
              [.points, .arbiter, .meters, .heads, .card, .power, .store]) ∧
        (∀ due, s.card.readyDue = some due → x.outcome = .degrade →
          ∃ t, exec .readyTimerExpiry s = .next t ∧ due ≤ t.now ∧ t.card.state = .contained ∧ t.power.state = .run ∧
            t.power.wait = none ∧
            t.captures = (s.captures.set .card ((s.capture .card).arrive ⟨.readyTimeout, .halt, none, none⟩)).set .supply
              ((s.capture .supply).arrive ⟨.sequenceTimeout, .fault, some (.step 1), none⟩) ∧
            (s.advanceTo due).touches t [.heads, .card, .captures, .power, .store]) ∧
        (s.pins.tamperOpen = false → x.outcome = .degrade →
          ∃ t, exec .tamper s = .next t ∧ t.card.state = .contained ∧ t.card.inbound = [] ∧ t.card.outbound = [] ∧
            t.power.state = .run ∧ t.power.wait = none ∧
            t.captures = (s.captures.set .card ((s.capture .card).arrive ⟨.tamper, .halt, none, none⟩)).set .supply
              ((s.capture .supply).arrive ⟨.sequenceTimeout, .fault, some (.step 1), none⟩) ∧
            s.touches t [.pins, .heads, .card, .captures, .power, .store]) ∧
        (∀ tag, s.takes → x.outcome = .goOn →
          ∃ t, exec (.cardStop tag) s = .next t ∧ t.card.state = .off ∧ t.power.state = .run ∧ t.power.wait = none ∧
            t.captures = s.captures.set .supply
              ((s.capture .supply).arrive ⟨.sequenceTimeout, .note, some (.step 1), none⟩) ∧
            t.replied (doneFrame .cardStop tag false []) ∧ s.touches t [.heads, .card, .captures, .power, .store]))) ∧
  (∀ (s : State) (p : Side) (x y : WakeStep) (rest : List WakeStep), s.power.table = x :: y :: rest →
    s.power.stepIndex = 1 → s.power.state = .waking → ∀ w, s.power.wait = some w → w.wait = .delay → y.action = .heater p →
      y.wait = .headWarm p → y.time ≠ 0 →
      ((s.head p).warm = false →
        ∃ t, exec .wakeWaitTimerExpiry s = .next t ∧ w.due ≤ t.now ∧
          t.power = { (s.advanceTo w.due).power with
            stepIndex := 2, wait := some ⟨.headWarm p, t.now + y.time * 1000⟩, steadySince := none } ∧
          t.heads = s.heads.set p { s.head p with heaterEnabled := true } ∧ (t.head p).heater = true ∧
          t.noted .power ∧ (s.advanceTo w.due).touches t [.heads, .power]) ∧
      ((s.head p).warm = true → ∀ z rest', rest = z :: rest' → z.action = .motorSupply → z.wait = .supplySteady →
        ∃ t, exec .wakeWaitTimerExpiry s = .next t ∧ w.due ≤ t.now ∧
          t.power = { (s.advanceTo w.due).power with
            stepIndex := 3, motorDrive := true, wait := some ⟨.supplySteady, t.now + z.time * 1000⟩,
            steadySince := if s.power.supply = .aboveRestore then some t.now else none } ∧
          t.heads = s.heads.set p { s.head p with heaterEnabled := true } ∧ (t.head p).heater = false ∧
          t.noted .power ∧ (s.advanceTo w.due).touches t [.heads, .power])) ∧
  (∀ (s : State) (p : Side), s.watching = true →
    (s.waitsFor (.headWarm p) = false →
      ∃ t, exec (.warmInputChange p true) s = .next t ∧
        t.heads = s.heads.set p { s.head p with warm := true, coldMark := false } ∧ (t.head p).heater = false ∧
        t.pins = { s.pins with warm := s.pins.warm.set p true } ∧
        ((s.head p).coldMark = true → s.running = true → t.noted (.point p)) ∧ s.touches t [.pins, .heads]) ∧
    (∃ t, exec (.warmInputChange p false) s = .next t ∧
      t.heads = s.heads.set p { s.head p with warm := false } ∧ (t.head p).heater = (s.head p).heaterEnabled ∧
      t.pins = { s.pins with warm := s.pins.warm.set p false } ∧ s.changesOnly t [.pins, .heads]))

/-! ### Meters -/

/-- R35 to R38, R40: what a transition of a pulser pair does: a step, a reverse step, an overrange at the bound, or a phase
error, which is counted in the sale that holds the meter and else in the idle count. The new pair becomes the reference. -/
def Obligations.PulserTransitionCounts : Prop :=
  ∀ (s : State) (m : Meter) (pair : Phases) (x : MeterUnit), x = s.meter m →
    (s.running = false →
      exec (.pulserTransition m pair) s = .next (s.withPins { s.pins with phases := s.pins.phases.set m pair })) ∧
    (s.running = true → ∀ u, u = s.withPins { s.pins with phases := s.pins.phases.set m pair } →
      (pair = x.reference → exec (.pulserTransition m pair) s = .next u) ∧
      ((x.reference, pair) ∈ [((⟨false, false⟩, ⟨true, false⟩) : Phases × Phases), (⟨true, false⟩, ⟨true, true⟩),
          (⟨true, true⟩, ⟨false, true⟩), (⟨false, true⟩, ⟨false, false⟩)] →
        exec (.pulserTransition m pair) s = .next (u.setMeter m (if x.count < 4095
          then { x with reference := pair, count := x.count + 1 } else { x with reference := pair, overrange := true }))) ∧
      ((pair, x.reference) ∈ [((⟨false, false⟩, ⟨true, false⟩) : Phases × Phases), (⟨true, false⟩, ⟨true, true⟩),
          (⟨true, true⟩, ⟨false, true⟩), (⟨false, true⟩, ⟨false, false⟩)] →
        exec (.pulserTransition m pair) s = .next (u.setMeter m (if -4095 < x.count
          then { x with reference := pair, count := x.count - 1 } else { x with reference := pair, overrange := true }))) ∧
      (pair = ⟨!x.reference.one, !x.reference.two⟩ →
        (x.holder = none → exec (.pulserTransition m pair) s =
          .next (u.setMeter m { x with reference := pair, idleErrors := min 65535 (x.idleErrors + 1) })) ∧
        (∀ p, x.holder = some p → ∀ r, (s.point p).sale = some r → r.phaseErrors < 65535 →
          (r.phaseErrors + 1 ≠ (s.meterSettings m).phaseLimit →
            ∃ t, exec (.pulserTransition m pair) s = .next t ∧
              t.points = s.points.set p { s.point p with sale := some { r with phaseErrors := r.phaseErrors + 1 } } ∧
              t.meters = (u.setMeter m { x with reference := pair }).meters ∧
              t.captures = (if r.phaseErrors = 0 then s.captures.set (Side.domain p)
                ((s.capture (Side.domain p)).arrive ⟨.phaseError, .note, some (.meter m), some r.number⟩) else s.captures) ∧
              u.touches t [.points, .meters, .captures]) ∧
          (r.phaseErrors + 1 = (s.meterSettings m).phaseLimit → (s.point p).state = .fuelling → 0 < r.phaseErrors →
            ∃ t, exec (.pulserTransition m pair) s = .next t ∧
              t.points = s.points.set p ((s.point p).stoppedBy
                { r with phaseErrors := r.phaseErrors + 1, unverified := true } .fault s.now) ∧
              t.captures = s.captures.set (Side.domain p)
                ((s.capture (Side.domain p)).arrive ⟨.meterTaint, .fault, some (.meter m), some r.number⟩) ∧
              t.noted (.point p) ∧ u.touches t [.points, .meters, .captures]))))

/-- R42 to R44, R46, R60, R71: the meter factor of a rate, what a window volume does to debt and volume of a sale, the figures it
then shows, and the overrun mark its end decides. -/
def Obligations.WindowVolumeJoinsTheSale : Prop :=
  ∀ (r : SaleRecord) (table : List TablePoint) (n dv : Int),
    windowVolume table 0 = 0 ∧ windowVolume table n = n * meterFactor table n.natAbs ∧
    (table.Pairwise (fun x y => x.q < y.q) → ∀ q,
      (∀ x rest, table = x :: rest → q ≤ x.q → meterFactor table q = x.k) ∧
      (∀ x ∈ table.getLast?, x.q ≤ q → meterFactor table q = x.k) ∧
      (∀ i x y, table[i]? = some x → table[i + 1]? = some y → x.q ≤ q → q < y.q →
        (meterFactor table q : Int) =
          x.k + Int.tdiv (((y.k : Int) - (x.k : Int)) * ((q : Int) - (x.q : Int))) ((y.q : Int) - (x.q : Int)) ∧
        min x.k y.k ≤ meterFactor table q ∧ meterFactor table q ≤ max x.k y.k)) ∧
    (∀ p k h g price gen e margin, (SaleRecord.opened p k h g price gen e margin).v = 0 ∧
      (SaleRecord.opened p k h g price gen e margin).d = 0 ∧
      (SaleRecord.opened p k h g price gen e margin).overrun = false) ∧
    (r.v ≤ 9223372036854775807 → r.d ≤ 9223372036854775807 →
      (dv < 0 → r.addVolume dv = { r with d := min 9223372036854775807 (r.d + dv.natAbs) }) ∧
      (dv = 0 → r.addVolume dv = r) ∧
      (0 < dv → dv.natAbs ≤ r.d → r.addVolume dv = { r with d := r.d - dv.natAbs }) ∧
      (0 < dv → r.d < dv.natAbs →
        r.addVolume dv = { r with v := min 9223372036854775807 (r.v + dv.natAbs - r.d), d := 0 }) ∧
      r.v ≤ (r.addVolume dv).v) ∧
    (r.showVolume.displayed = min 999999 (r.v / 10000000) ∧
      (999999 < r.v / 10000000 → r.showVolume.unverified = true ∧ r.showVolume.capacity = true)) ∧
    (r.showMoney.money = min 999999 ((r.displayed * r.unitPrice + 500) / 1000) ∧
      (999999 < (r.displayed * r.unitPrice + 500) / 1000 → r.showMoney.unverified = true ∧ r.showMoney.capacity = true)) ∧
    (r.close.overrun = match r.preset with
      | none => false
      | some (.volume cl) => decide (cl < r.displayed)
      | some (.money cents) => decide (cents < r.money))

/-- R64, R65, R66: the money target is the smallest displayed volume whose money reaches the preset; the target of a sale is the
smallest of its preset target and its two capacity bounds, with source PRESET when the preset target is not above the bounds;
the slow-down threshold lies the margin below it. -/
def Obligations.MoneyTargetIsTheSmallest : Prop :=
  ∀ (cents price cl : Nat), 1 ≤ cents → 1 ≤ price →
    moneyTarget cents price * price < (2 * cents - 1) * 500 + price ∧
    (moneyTarget cents price ≤ cl ↔ cents ≤ (cl * price + 500) / 1000) ∧
    (capacityTarget price ≤ cl ↔ 999000 ≤ cl ∨ 999000 ≤ (cl * price + 500) / 1000) ∧
    (∀ (p : Side) (n : BitVec 16) (h : Slot) (g : Grade) (gen : BitVec 8) (e : Entry) (margin : Nat) (r : SaleRecord),
      r = SaleRecord.opened p n h g price gen e margin →
      (e.preset = some (.volume cl) → r.target = min cl (capacityTarget price) ∧
        (r.targetSource = .preset ↔ cl ≤ capacityTarget price)) ∧
      (e.preset = some (.money cents) → r.target = min (moneyTarget cents price) (capacityTarget price) ∧
        (r.targetSource = .preset ↔ moneyTarget cents price ≤ capacityTarget price)) ∧
      (e.preset = none → r.target = capacityTarget price ∧ r.targetSource = .capacity) ∧
      r.slowdown = r.target - margin)

/-- R12, R39, R40, R43, R45 to R47, R49, R50, R61, R67 to R69: the window end while every meter but one is quiet. On a held meter
a forward window joins the sale, whose figures go on to the thresholds, in STARTING too; on a free one it adds to U, and the
unattributed-flow limit halts the owning point. An overranged window raises RATE_OVERRANGE and counts all the same, a debt past
the hose's tolerance raises BACKFLOW once and stops the sale, and the first window in which a cap binds raises
CAPACITY_SATURATED. -/
def Obligations.WindowEndCountsTheVolume : Prop :=
  ∀ (s : State) (m : Meter), s.running = true → (∀ k, k ≠ m → s.quiet k) →
    ((s.meter m).overrange = false → ∀ p, (s.meter m).holder = some p → ∀ r, (s.point p).sale = some r → (s.point p).state ≠ .starting →
      0 ≤ (s.meter m).count →
      ∀ r', r' = ((r.addVolume (windowVolume (s.meterSettings m).table (s.meter m).count)).showVolume).showMoney →
      volumeBinds r'.v = false → moneyBinds r'.displayed r'.unitPrice = false →
      ∃ t, exec .windowEnd s = .next t ∧ s.meters.windowDue ≤ t.now ∧ t.meters.windowDue = s.meters.windowDue + 100 ∧
        t.meter m = { s.meter m with lastCount := (s.meter m).count, lastOverrange := false, count := 0 } ∧
        (r'.target ≤ r'.displayed → ((s.point p).state = .fuelling ∨ (s.point p).state = .slowdown) →
          t.points = s.points.set p ((s.point p).stoppedBy r'
            (if r'.targetSource = .preset then .preset else .capacity) t.now) ∧ t.noted (.point p)) ∧
        (r'.displayed < r'.target → r'.slowdown ≤ r'.displayed → (s.point p).state = .fuelling →
          t.points = s.points.set p { s.point p with sale := some r', state := .slowdown } ∧ t.noted (.point p) ∧
          (Slot.side r.hose = p → t.mainValve r'.hose = false)) ∧
        (r'.displayed < r'.target → (r'.displayed < r'.slowdown ∨ (s.point p).state = .slowdown) →
          (s.point p).state ≠ .stopping → t.points = s.points.set p { s.point p with sale := some r' }) ∧
        (∀ y, (s.point p).settle = some y → (s.point p).state = .stopping →
          t.points = s.points.set p { s.point p with
            sale := some r',
            settle := if (s.meter m).count = 0 then some y else some ⟨t.now + y.length, y.length⟩ }) ∧
        (s.advanceTo s.meters.windowDue).touches t [.points, .meters]) ∧
    ((s.meter m).overrange = false → (s.meter m).holder = none → ∀ u : Int,
      u = (s.meter m).u + windowVolume (s.meterSettings m).table (s.meter m).count → u.natAbs ≤ 9223372036854775807 →
      (u.natAbs < (s.meterSettings m).flowLimit * 10000000 →
        ∃ t, exec .windowEnd s = .next t ∧ t.meters.windowDue = s.meters.windowDue + 100 ∧
          t.meter m = { s.meter m with lastCount := (s.meter m).count, lastOverrange := false, count := 0, u := u } ∧
          (s.advanceTo s.meters.windowDue).changesOnly t [.meters]) ∧
      (∀ p, s.owner m = some p → (s.meterSettings m).flowLimit * 10000000 ≤ u.natAbs → (s.meter m).limitMark = false →
        ((s.point p).state = .idle ∨ (s.point p).state = .calling ∨ (s.point p).state = .closed) →
        ∃ t, exec .windowEnd s = .next t ∧ (t.meter m).u = u ∧ (t.meter m).limitMark = true ∧
          (t.point p).state = (if (s.point p).state = .closed then .closed else .halted) ∧
          t.captures = s.captures.set (Side.domain p)
            ((s.capture (Side.domain p)).arrive ⟨.unattributedFlow, .halt, some (.meter m), none⟩) ∧
          t.noted (.meter m) ∧ (s.advanceTo s.meters.windowDue).touches t [.points, .meters, .captures])) ∧
    (∀ p, (s.meter m).holder = some p → ∀ r, (s.point p).sale = some r → ∀ dv,
      dv = windowVolume (s.meterSettings m).table (s.meter m).count →
      ((s.point p).state = .starting → (s.meter m).overrange = false → 0 ≤ (s.meter m).count →
        ∀ r', r' = ((r.addVolume dv).showVolume).showMoney →
        volumeBinds r'.v = false → moneyBinds r'.displayed r'.unitPrice = false →
        (r'.displayed < r'.target →
          ∃ t, exec .windowEnd s = .next t ∧ t.points = s.points.set p { s.point p with sale := some r' } ∧
            (s.advanceTo s.meters.windowDue).touches t [.points, .meters]) ∧
        (r'.target ≤ r'.displayed → r'.displayed ≠ 0 → s.power.state = .run → s.prices.pending = none →
          (s.point p).closing = false → s.holdsHalt (Side.domain p) = false → s.arbiter.requests = [] →
          ∀ why, why = (if r'.targetSource = .preset then EndReason.preset else .capacity) →
          ∃ t, exec .windowEnd s = .next t ∧
            t.points = s.points.set p { (s.point p).saleOver (if (s.point p).nozzles = [] then .idle else .calling)
                (some why) with
              stack := (s.point p).stack ++ [{ r' with endReason := some why, overrun := r'.overruns }] } ∧
            t.noted (.sale p) ∧ t.noted (.point p) ∧
            (s.advanceTo s.meters.windowDue).touches t [.points, .meters, .heads, .store])) ∧
      ((s.point p).state = .fuelling → (s.meter m).overrange = true → 0 ≤ (s.meter m).count →
        ∀ r', r' = ((({ r with unverified := true } : SaleRecord).addVolume dv).showVolume).showMoney →
        volumeBinds r'.v = false → moneyBinds r'.displayed r'.unitPrice = false → r'.displayed < r'.target →
        r'.displayed < r'.slowdown →
        ∃ t, exec .windowEnd s = .next t ∧ t.points = s.points.set p { s.point p with sale := some r' } ∧
          t.meter m = { s.meter m with lastCount := (s.meter m).count, lastOverrange := true, count := 0,
                                       overrange := false } ∧
          t.captures = s.captures.set (Side.domain p)
            ((s.capture (Side.domain p)).arrive ⟨.rateOverrange, .fault, some (.meter m), some r.number⟩) ∧
          t.noted (.meter m) ∧ (s.advanceTo s.meters.windowDue).touches t [.points, .meters, .captures]) ∧
      ((s.point p).state = .fuelling → (s.meter m).overrange = false → (s.meter m).count < 0 → dv < 0 →
        ∀ z, s.hose r.hose = some z → ∀ past : Bool,
        past = (!r.backflowRaised && decide (z.tolerance * 10000000 < min 9223372036854775807 (r.d + dv.natAbs))) →
        ∀ r', r' = (({ r with d := min 9223372036854775807 (r.d + dv.natAbs),
                              backflowRaised := r.backflowRaised || past } : SaleRecord).showVolume).showMoney →
        volumeBinds r'.v = false → moneyBinds r'.displayed r'.unitPrice = false →
        (past = true → ∃ t, exec .windowEnd s = .next t ∧
          t.points = s.points.set p ((s.point p).stoppedBy r' .fault t.now) ∧
          t.captures = s.captures.set (Side.domain p)
            ((s.capture (Side.domain p)).arrive ⟨.backflow, .fault, some (.slot r.hose), some r.number⟩) ∧
          t.noted (.point p) ∧ (s.advanceTo s.meters.windowDue).touches t [.points, .meters, .captures]) ∧
        (past = false → r'.displayed < r'.target → r'.displayed < r'.slowdown → ∃ t, exec .windowEnd s = .next t ∧
          t.points = s.points.set p { s.point p with sale := some r' } ∧
          (s.advanceTo s.meters.windowDue).touches t [.points, .meters])) ∧
      ((s.point p).state = .stopping → (s.meter m).overrange = false → 0 ≤ (s.meter m).count →
        ∀ y, (s.point p).settle = some y → ∀ r', r' = ((r.addVolume dv).showVolume).showMoney → ∀ f,
        f = (⟨.capacitySaturated, .fault, none, some r.number⟩ : FaultRecord) → ∀ c,
        c = (if volumeBinds r'.v = true ∧ volumeBinds r.v = false then (s.capture (Side.domain p)).arrive f
          else s.capture (Side.domain p)) →
        ∃ t, exec .windowEnd s = .next t ∧
          t.points = s.points.set p { s.point p with
            sale := some r',
            settle := if (s.meter m).count = 0 then some y else some ⟨t.now + y.length, y.length⟩ } ∧
          t.captures = s.captures.set (Side.domain p)
            (if moneyBinds r'.displayed r'.unitPrice = true ∧ moneyBinds r.displayed r.unitPrice = false then c.arrive f
              else c) ∧
          (s.advanceTo s.meters.windowDue).touches t [.points, .meters, .captures])) ∧
    ((s.meter m).overrange = true → (s.meter m).holder = none → ∀ u : Int,
      u = (s.meter m).u + windowVolume (s.meterSettings m).table (s.meter m).count → u.natAbs ≤ 9223372036854775807 →
      u.natAbs < (s.meterSettings m).flowLimit * 10000000 →
      ∃ t, exec .windowEnd s = .next t ∧
        t.meter m = { s.meter m with lastCount := (s.meter m).count, lastOverrange := true, count := 0,
                                     overrange := false, u := u } ∧
        t.captures = (match s.owner m with
          | some p => s.captures.set (Side.domain p)
              ((s.capture (Side.domain p)).arrive ⟨.rateOverrange, .fault, some (.meter m), none⟩)
          | none => s.captures) ∧
        t.noted (.meter m) ∧ (s.advanceTo s.meters.windowDue).touches t [.meters, .captures])

/-! ### Heads -/

/-- R93, R100, R101, R103: a refresh shows the head's content, compares the chain with what is read back, and acts on the
result; a head without power is not refreshed; the all-on phase of a segment test ends in the all-off phase. R94 to R99, R195: the
point's state gives the content kind, the kind its image of 28 digits in 224 segment states, in chain order a to g (0 to 6 below) and
then the decimal point. -/
def Obligations.HeadRefreshChecksTheEcho : Prop :=
  (∀ x ∈ [(Glyph.digit 0, [0, 1, 2, 3, 4, 5]), (.digit 1, [1, 2]), (.digit 2, [0, 1, 3, 4, 6]), (.digit 3, [0, 1, 2, 3, 6]),
      (.digit 4, [1, 2, 5, 6]), (.digit 5, [0, 2, 3, 5, 6]), (.digit 6, [0, 2, 3, 4, 5, 6]), (.digit 7, [0, 1, 2]),
      (.digit 8, [0, 1, 2, 3, 4, 5, 6]), (.digit 9, [0, 1, 2, 3, 5, 6]), (.dash, [6]), (.blank, []),
      (.allOn, [0, 1, 2, 3, 4, 5, 6])],
    ∀ (lit : Bool) (rest : List Digit),
      chain (⟨x.1, lit⟩ :: rest) = (List.range 7).map (fun i => decide (i ∈ x.2)) ++ lit :: chain rest) ∧
  chain [] = [] ∧
  (∀ v, v ≤ 999999 → figureField v =
    [⟨if v < 100000 then .blank else .digit (v / 100000), false⟩, ⟨if v < 10000 then .blank else .digit (v / 10000 % 10), false⟩,
      ⟨if v < 1000 then .blank else .digit (v / 1000 % 10), false⟩, ⟨.digit (v / 100 % 10), true⟩,
      ⟨.digit (v / 10 % 10), false⟩, ⟨.digit (v % 10), false⟩]) ∧
  (∀ (s : State) (p : Side),
    ((s.point p).state = .closed → s.contentKind p = .closed) ∧ ((s.point p).state = .halted → s.contentKind p = .halted) ∧
    (((s.point p).state = .idle ∨ (s.point p).state = .calling ∨ (s.point p).state = .authorized) →
      s.contentKind p = .lastSale) ∧
    ((s.point p).state = .starting → ((s.head p).test = .none → s.contentKind p = .running) ∧
      (∀ since, ((s.head p).test = .allOn since → s.contentKind p = .testOn) ∧
        ((s.head p).test = .allOff since → s.contentKind p = .testOff))) ∧
    (((s.point p).state = .fuelling ∨ (s.point p).state = .slowdown ∨ (s.point p).state = .suspended ∨
      (s.point p).state = .stopping) → s.contentKind p = .running) ∧
    (∀ g : Grade,
      (s.carries p g = true ↔ ∃ h : Slot, Slot.side h = p ∧ (s.hose h).any (fun z => decide (z.grade = g)) = true) ∧
      (s.carries p g = false → s.gradeField p g = List.replicate 4 ⟨.blank, false⟩) ∧
      (s.carries p g = true → s.prices.active.get g = none → s.gradeField p g = List.replicate 4 ⟨.dash, false⟩) ∧
      (∀ v, s.carries p g = true → s.prices.active.get g = some v → s.gradeField p g =
        [⟨.digit (v / 1000 % 10), true⟩, ⟨.digit (v / 100 % 10), false⟩, ⟨.digit (v / 10 % 10), false⟩,
          ⟨.digit (v % 10), false⟩])) ∧
    (∀ prices, prices = s.gradeField p 0 ++ s.gradeField p 1 ++ s.gradeField p 2 ++ s.gradeField p 3 →
      ∀ dashes, dashes = List.replicate 12 (⟨.dash, false⟩ : Digit) →
      s.imageOf p .closed = List.replicate 12 ⟨.blank, false⟩ ++ prices ∧
      s.imageOf p .halted = dashes ++ List.replicate 16 ⟨.blank, false⟩ ∧
      s.imageOf p .testOn = List.replicate 28 ⟨.allOn, true⟩ ∧ s.imageOf p .testOff = List.replicate 28 ⟨.blank, false⟩ ∧
      ((s.head p).lastSale = .none → s.imageOf p .lastSale = figureField 0 ++ figureField 0 ++ prices) ∧
      (∀ cl cents, (s.head p).lastSale = .figures cl cents false →
        s.imageOf p .lastSale = figureField cents ++ figureField cl ++ prices) ∧
      (∀ cl cents, (s.head p).lastSale = .figures cl cents true → s.imageOf p .lastSale = dashes ++ prices) ∧
      ((s.head p).lastSale = .damaged → s.imageOf p .lastSale = dashes ++ prices) ∧
      (∀ r, (s.point p).sale = some r →
        (r.unverified = false → s.imageOf p .running = figureField r.money ++ figureField r.displayed ++ prices) ∧
        (r.unverified = true → s.imageOf p .running = dashes ++ prices))) ∧
    (∀ kind, (chain (s.imageOf p kind)).length = 224)) ∧
  (∀ (s : State) (p : Side) (echo : List Bool) (h : Head), h = s.head p →
    (h.power = false → exec (.headRefresh p echo) s = .next s) ∧
    (h.power = true → ∀ kind, kind = s.contentKind p → ∀ image, image = s.imageOf p kind →
      (echo = chain image →
        ∃ t, exec (.headRefresh p echo) s = .next t ∧ h.refreshDue ≤ t.now ∧
          t.heads = s.heads.set p { h with content := kind, image := some image, result := .matched, mismatches := 0,
                                           refreshDue := h.refreshDue + 50 } ∧
          (s.advanceTo h.refreshDue).changesOnly t [.heads]) ∧
      (echo ≠ chain image → kind ≠ .testOn → kind ≠ .testOff →
        (h.mismatches < 2 → ∃ t, exec (.headRefresh p echo) s = .next t ∧
          t.heads = s.heads.set p { h with content := kind, image := some image, result := .mismatched,
                                           mismatches := h.mismatches + 1, refreshDue := h.refreshDue + 50 } ∧
          t.captures = s.captures.set (Side.domain p) ((s.capture (Side.domain p)).arrive
            ⟨.displayMismatch, .note, some (.head p), (s.point p).sale.map (·.number)⟩) ∧
          (s.advanceTo h.refreshDue).touches t [.heads, .captures]) ∧
        (h.mismatches = 2 → s.running = true → ((s.point p).state = .idle ∨ (s.point p).state = .calling) →
          ∃ t, exec (.headRefresh p echo) s = .next t ∧ (t.head p).mismatches = 3 ∧ (t.point p).state = .halted ∧
            t.captures = s.captures.set (Side.domain p) (((s.capture (Side.domain p)).arrive
              ⟨.displayMismatch, .note, some (.head p), (s.point p).sale.map (·.number)⟩).arrive
              ⟨.displayFault, .halt, some (.head p), (s.point p).sale.map (·.number)⟩) ∧
            t.noted (.point p) ∧ (s.advanceTo h.refreshDue).touches t [.points, .heads, .captures]) ∧
        (3 ≤ h.mismatches → ∃ t, exec (.headRefresh p echo) s = .next t ∧
          t.heads = s.heads.set p { h with content := kind, image := some image, result := .mismatched,
                                           refreshDue := h.refreshDue + 50 } ∧
          (s.advanceTo h.refreshDue).changesOnly t [.heads])) ∧
      (echo ≠ chain image → (kind = .testOn ∨ kind = .testOff) → s.power.state = .run → s.prices.pending = none →
        ∀ r, (s.point p).sale = some r → s.arbiter.requests = [] →
        ∃ t, exec (.headRefresh p echo) s = .next t ∧ (t.head p).mismatches = 3 ∧ (t.head p).test = .none ∧
          t.point p = (s.point p).saleOver .halted (some .fault) ∧ (t.point p).stack = (s.point p).stack ∧
          t.store = s.store ∧ t.noted (.sale p) ∧ t.noted (.point p) ∧
          t.captures = s.captures.set (Side.domain p) ((s.capture (Side.domain p)).arrive
            ⟨.displayFault, .halt, some (.head p), some r.number⟩) ∧
          (s.advanceTo h.refreshDue).touches t [.points, .meters, .heads, .captures])) ∧
    (∀ since, h.test = .allOn since →
      ∃ t, exec (.segmentTestAllOnEnd p) s = .next t ∧ since + 1000 ≤ t.now ∧
        t.heads = s.heads.set p { h with test := .allOff t.now } ∧ (s.advanceTo (since + 1000)).changesOnly t [.heads]))

/-! ### Records, supply and restore -/

/-- R145 to R147, R151, R160: a completed write leaves its content in the record with the check code computed over it, answers the
replies that waited for it, and the oldest queued record begins its own; in POWERFAIL the save goes on to its next record. A
record is judged valid with the content of its completed write, and damaged from the beginning of a write to its completion. The
bytes over which the check code is taken are the model's choice (log entry 17). -/
def Obligations.WriteCompletionSealsTheRecord : Prop :=
  ∀ (s : State) (w : InFlight), s.store.inFlight = some w →
    (∀ (r : Records) (h : Slot) (p : Side),
      (∀ c, (r.seal (.metrology c)).findMetrology = .valid c ∧ (r.tear (.metrology c)).findMetrology = .damaged) ∧
      (∀ c, (r.seal (.settings c)).findSettings = .valid c ∧ (r.tear (.settings c)).findSettings = .damaged) ∧
      (∀ c, (r.seal (.price c)).findPrice = .valid c ∧ (r.tear (.price c)).findPrice = .damaged) ∧
      (∀ c, (r.seal (.totals h c)).findTotals h = .valid c ∧ (r.tear (.totals h c)).findTotals h = .damaged) ∧
      (∀ c, (r.seal (.snapshot p c)).findSnapshot p = .valid c ∧ (r.tear (.snapshot p c)).findSnapshot p = .damaged) ∧
      (∀ c, (r.seal (.power c)).findPower = .valid c ∧ (r.tear (.power c)).findPower = .damaged)) ∧
    (s.power.state ≠ .powerfail → s.power.state ≠ .restore → s.running = true →
      ((s.point .a).state ≠ .authorized ∧ (s.point .b).state ≠ .authorized) →
      ∃ t, exec .recordWriteComplete s = .next t ∧ w.due ≤ t.now ∧
        (∀ x ∈ s.link.waiting, ∀ payload, x.waits = .write w.content.record true payload →
          t.replied ⟨x.kind + 0x80, x.tag, payload, []⟩) ∧
        (∀ x ∈ s.link.waiting, ∀ r payload, x.waits = .write r false payload → r = w.content.record →
          t.awaits x.kind x.tag r payload) ∧
        (s.store.queue = [] → t.store.inFlight = none ∧ t.store.queue = [] ∧
          t.store.records = s.store.records.seal w.content) ∧
        (∀ r rest, s.store.queue = r :: rest → t.store.queue = rest ∧
          t.store.records = (s.store.records.seal w.content).tear (s.content r) ∧
          (r ≠ .metrology → t.store.inFlight = some ⟨s.content r, t.now + 1, false⟩) ∧
          (r = .metrology → t.store.inFlight = some ⟨s.content r, t.now + 5, false⟩)) ∧
        t.store.dirty = (match w.content with
          | .snapshot p _ => if w.stale = true then s.store.dirty else s.store.dirty.set p false
          | _ => s.store.dirty) ∧
        t.metrology = (if w.content.record = .metrology then { s.metrology with damaged := false } else s.metrology) ∧
        (s.advanceTo w.due).changesOnly t [.metrology, .store, .link]) ∧
    (s.power.state = .powerfail → ∀ stage, s.power.save = some stage →
      ∃ t, exec .recordWriteComplete s = .next t ∧ w.due ≤ t.now ∧
        (stage = .draining → w.content.record ≠ .snapshot .a → s.store.dirty.a = true →
          t.power = { (s.advanceTo w.due).power with save := some .snapshotA } ∧
          t.store.inFlight = some ⟨.snapshot .a s.store.snapshots.a, t.now + 1, false⟩) ∧
        (stage = .snapshotA → w.content.record ≠ .snapshot .b → s.store.dirty.b = true →
          t.power = { (s.advanceTo w.due).power with save := some .snapshotB } ∧
          t.store.inFlight = some ⟨.snapshot .b s.store.snapshots.b, t.now + 1, false⟩) ∧
        (stage = .snapshotB → t.power = { (s.advanceTo w.due).power with save := some .power } ∧
          t.store.inFlight = some ⟨.power ⟨s.power.saveField, true⟩, t.now + 1, false⟩) ∧
        (stage = .power → s.power.resetSeen = false → s.power.supply ≠ .aboveRestore →
          t.power = { (s.advanceTo w.due).power with save := some .complete } ∧ t.store.inFlight = none) ∧
        (stage = .power → s.power.resetSeen = true → t.power.state = .restore ∧ t.power.cause = .reset ∧
          t.power.restoreWaiting = true) ∧
        (s.advanceTo w.due).changesOnly t [.metrology, .store, .power])

/-- R159, R29, R73, R160, R190, R154: the power-fail warning, and the reset input like it, take the part into POWERFAIL: the
outputs are off, both points are CLOSED, a sale with volume is handed over as a POWER snapshot, and the link is silent. That the
end reason POWER replaces the one of a sale in STOPPING is the model's reading of R29 against R72 (log entry 25), that a warning
clears the reset seen mark its reading of R157 (log entry 15). R162: in the restore wait the warning enters POWERFAIL with a save
that writes nothing and the cause kept, and an assertion of the reset input passes through POWERFAIL to a new wait with cause
RESET, its 1.0 s begun anew. -/
def Obligations.WarningStopsThePart : Prop :=
  (∀ (s : State) (reset : Bool), s.running = true → (reset = true → s.pins.resetAsserted = false) → s.saveOver = false →
    ∃ t, exec (if reset = true then .resetAsserted else .powerFailWarning) s = .next t ∧
      t.power.state = .powerfail ∧ t.power.motorDrive = false ∧ t.power.wait = none ∧
      (reset = true → t.power.resetSeen = true ∧ t.power.supply = s.power.supply ∧ t.pins.resetAsserted = true) ∧
      (reset = false → t.power.resetSeen = false ∧ t.power.supply = .belowWarn ∧ t.pins = s.pins) ∧
      t.power.saveField = (if s.power.state = .restore then s.power.loaded else s.power.state) ∧
      t.power.pendingPrice = (s.power.pendingPrice || s.prices.pending.isSome) ∧
      (∀ p, (t.point p).state = .closed ∧ (t.point p).entry = none ∧ (t.point p).sale = none ∧ (t.point p).relay = false ∧
        (t.head p).power = false ∧ (t.head p).heaterEnabled = false) ∧
      (∀ k, t.mainValve k = false ∧ t.slowValve k = false) ∧ t.card.state.powered = false ∧ t.arbiter.requests = [] ∧
      (∀ p, ∀ r, (s.point p).sale = some r → (t.point p).lastEnd = some .power ∧
        (r.displayed ≠ 0 → r.displayed = min 999999 (r.v / 10000000) → ∃ x, t.store.snapshots.get p = .power x ∧
          x.number = r.number ∧ x.endReason = some .power ∧ r.displayed ≤ x.displayed ∧ t.store.dirty.get p = true)) ∧
      (∀ p, (s.point p).sale = none → t.store.snapshots.get p = s.store.snapshots.get p) ∧
      t.store.totals = s.store.totals ∧ t.store.queue = [] ∧
      t.link = { s.link with receiver := .hunting, queue := [], waiting := [], finished := [], line := .idle,
                             notices := [], lossDue := none } ∧
      (s.store.inFlight = none → s.store.dirty = ⟨false, false⟩ → (∀ p, (s.point p).sale = none) →
        t.power.save = some .power ∧
        t.store.inFlight = some ⟨.power ⟨t.power.saveField, true⟩, s.now + 1, false⟩) ∧
      (∀ w, s.store.inFlight = some w → t.power.save = some .draining ∧ t.store.inFlight.map (·.content) = some w.content) ∧
      s.changesOnly t [.pins, .points, .arbiter, .meters, .prices, .heads, .card, .captures, .store, .power, .link]) ∧
  (∀ (s : State), s.power.state = .restore → s.power.restoreWaiting = true →
    (∃ t, exec .powerFailWarning s = .next t ∧ t.power = { s.power with
      supply := .belowWarn, steadySince := none, aboveSince := none, resetSeen := false, state := .powerfail,
      restoreWaiting := false, save := some .complete, fromWait := true } ∧ s.changesOnly t [.power]) ∧
    (s.pins.resetAsserted = false →
      ∃ t, exec .resetAsserted s = .next t ∧ t.pins = { s.pins with resetAsserted := true } ∧
        t.power = { s.power with
          resetSeen := true, cause := .reset, save := none, fromWait := false,
          aboveSince := if s.power.supply = .aboveRestore then some s.now else none } ∧
        s.changesOnly t [.pins, .power]))

/-- R158, R161, R162, R175, R179: the other changes of the supply, of the backup cell and of the reset input. That SUPPLY_DIP
carries a rise to BETWEEN too, that COLLAPSE is taken in every state but DARK, and the values of volatile items in DARK are the
model's choice (log entry 16). -/
def Obligations.SupplyInputsAct : Prop :=
  ∀ (s : State),
    exec .resetReleased s = .next (s.withPins { s.pins with resetAsserted := false }) ∧
    (s.power.supply = .aboveRestore → exec .supplyDip s = .next (s.withPower { s.power with
      supply := .between, steadySince := none, aboveSince := none })) ∧
    (s.power.supply ≠ .aboveRestore → exec .supplyDip s = .next (s.withPower { s.power with supply := .between })) ∧
    (s.power.supply ≠ .aboveRestore →
      (s.power.state = .dark → exec .supplyRecovery s = .next (s.withPower { s.power with
        supply := .aboveRestore, state := .restore, cause := .dark, restoreWaiting := true, aboveSince := some s.now,
        save := none, fromWait := false })) ∧
      (s.power.state = .waking → s.waitsFor .supplySteady = true → exec .supplyRecovery s = .next (s.withPower
        { s.power with supply := .aboveRestore, steadySince := some s.now })) ∧
      ((s.power.state = .standby ∨ s.power.state = .run ∨ s.power.state = .closing) →
        exec .supplyRecovery s = .next (s.withPower { s.power with supply := .aboveRestore })) ∧
      (s.saveOver = true → s.power.resetSeen = false →
        ∃ t, exec .supplyRecovery s = .next t ∧ t.power.state = .restore ∧
          t.power.cause = (if s.power.fromWait = true then s.power.cause else .brownout) ∧
          t.power.restoreWaiting = true ∧ t.power.aboveSince = some s.now ∧ s.changesOnly t [.power])) ∧
    (s.power.state ≠ .dark → ∃ t, exec .collapse s = .next t ∧ t.power.state = .dark ∧ t.now = s.now ∧ t.pins = s.pins ∧
      t.store.records = s.store.records ∧ t.store.inFlight = none ∧ t.power.cell = s.power.cell ∧
      t.power.clock = s.power.clock ∧
      t.power.clockKept = (s.power.clockKept && decide (s.power.cell = .good)) ∧
      t.power.clockValid = (s.power.clockValid && decide (s.power.cell = .good)) ∧
      t.power.pendingPrice = (s.power.pendingPrice && decide (s.power.cell = .good)) ∧
      (∀ p, (t.point p).sale = none ∧ t.motorRelay p = false ∧ (t.head p).power = false) ∧
      (∀ k, t.mainValve k = false ∧ t.slowValve k = false) ∧ t.card.state = .off ∧ t.captures = .empty) ∧
    (s.power.state = .dark → ∀ c, ∃ t, exec (.backupCellChange c) s = .next t ∧
      t.power = (if c = .low then { s.power with cell := c, clockKept := false, clockValid := false, pendingPrice := false }
        else { s.power with cell := c }) ∧ s.changesOnly t [.power]) ∧
    (s.power.state ≠ .dark → ∀ c, ∃ t, exec (.backupCellChange c) s = .next t ∧ t.power = { s.power with cell := c } ∧
      (s.running = true → t.noted .power) ∧ s.touches t [.power])

/-- R150, R153, R162 to R166, R143, R145, R149, R152, R58, R78: what a completed restore wait leaves, with the housing closed. Each
valid record gives its content back, each damaged one its rule's values; with all records blank the part goes to STANDBY. A
snapshot of a sale that its slot's totals do not name is settled into them, a POWER snapshot pushed onto the stack too, and the
part stays in RESTORE until that write completes. The next state goes by policy and loaded field. The summary as R194 lays it out
leaves out whether the clock is valid (log entry 6). -/
def Obligations.RestoreLoadsTheRecords : Prop :=
  (∀ (s : State) (strap : Bool) (since : Nat), s.power.aboveSince = some since → s.power.state = .restore →
    s.power.restoreWaiting = true → s.pins.resetAsserted = false → s.pins.tamperOpen = false →
    ((∀ p r, s.store.records.findSnapshot p ≠ .valid (.ended r) ∧ s.store.records.findSnapshot p ≠ .valid (.power r)) →
      ∃ t, exec (.restoreWaitComplete strap) s = .next t ∧ since + 1000 ≤ t.now ∧
        t.link.speed = (if strap = true then .baud115200 else .baud57600) ∧ t.link.up = true ∧ t.link.queue = [] ∧
        (∀ p, (t.point p).sale = none ∧ (t.point p).entry = none ∧ (t.point p).stack = []) ∧
        (∀ m, (t.meter m).reference = s.pins.phases.get m ∧ (t.meter m).count = 0 ∧ (t.meter m).holder = none) ∧
        (∀ c, s.store.records.findMetrology = .valid c → t.metrology = ⟨c, false⟩) ∧
        (s.store.records.findMetrology = .blank → t.metrology = ⟨.blank, false⟩) ∧
        (s.store.records.findMetrology = .damaged →
          t.metrology = ⟨.blank, true⟩ ∧ t.holdsHalt .pointA = true ∧ t.holdsHalt .pointB = true) ∧
        (∀ c, s.store.records.findSettings = .valid c → t.settings = c) ∧
        (s.store.records.findSettings = .blank ∨ s.store.records.findSettings = .damaged → t.settings = .default) ∧
        (∀ c, s.store.records.findPrice = .valid c → t.prices.active = c.active ∧ t.prices.generation = c.generation) ∧
        (s.store.records.findPrice = .blank ∨ s.store.records.findPrice = .damaged →
          t.prices.active = PriceSet.unset ∧ t.prices.generation = 0) ∧
        (∀ h, ∀ c, s.store.records.findTotals h = .valid c → t.totals h = c) ∧
        (∀ h, s.store.records.findTotals h = .blank → t.totals h = Totals.blank) ∧
        (∀ h, s.store.records.findTotals h = .damaged → t.totals h = { Totals.blank with blocked := true }) ∧
        (∀ p, s.store.records.findSnapshot p = .damaged → t.store.snapshots.get p = .damaged ∧
          (t.head p).lastSale = .damaged ∧ (t.capture (Side.domain p)).fault.isSome = true) ∧
        (∀ p, s.store.records.findSnapshot p = .blank → t.store.snapshots.get p = .none ∧ (t.head p).lastSale = .none) ∧
        t.power.summary.cause = s.power.cause ∧ t.power.summary.clockKept = s.power.clockKept ∧ t.power.clockKept = true ∧
        (s.power.clockKept = false → t.power.clockValid = false ∧ t.power.clock = 0) ∧
        (∀ x f, s.store.records.findSettings = .valid x → s.store.records.findPower = .valid ⟨f, true⟩ →
          t.power.loaded = f ∧ t.power.resetSeen = false ∧ t.power.pendingPrice = false ∧
          (x.policy = .resume → (f = .run ∨ f = .waking) → t.power.summary.next = some .waking ∧
            (∀ y, x.table = [y] → y.action = .heater .a → y.wait = .delay → y.time ≠ 0 →
              t.power.state = .waking ∧ t.power.stepIndex = 1)) ∧
          ((x.policy = .hold ∨ (f ≠ .run ∧ f ≠ .waking)) →
            t.power.summary.next = some .standby ∧ t.power.state = .standby)) ∧
        (s.store.records = Records.blank → s.power.cause = .dark → s.power.clockKept = false →
          t.power.state = .standby ∧ t.power.summary.next = some .standby ∧
          t.power.summary.findings = [⟨.clockLost, .supply, none⟩] ∧
          t.captures = Captures.empty.set .supply (Capture.empty.arrive ⟨.clockLost, .note, none, none⟩) ∧
          (∀ p, (t.point p).state = .closed ∧ (t.head p).power = false) ∧ t.card.state = .off ∧
          t.store.inFlight = some ⟨.power ⟨.standby, false⟩, t.now + 1, false⟩ ∧
          t.noted .power ∧ t.noted .price ∧ t.noted (.fault .supply))) ∧
    (∀ p r x, s.store.records.findSnapshot p = .valid x → (x = .ended r ∨ x = .power r) →
      s.store.records.findSnapshot (Side.other p) = .blank → ∀ c, s.store.records.findTotals r.hose = .valid c →
      ∃ t, exec (.restoreWaitComplete strap) s = .next t ∧ t.store.snapshots.get p = x ∧ (t.point p).lastNumber = r.number ∧
        (t.head p).lastSale = .figures r.displayed r.money r.unverified ∧ t.point (Side.other p) =
          { t.point (Side.other p) with stack := [] } ∧
        ((r.displayed = 0 ∨ c.last = r.number) → t.totals r.hose = c ∧ (t.point p).stack = [] ∧
          t.power.summary.recovered = [] ∧ t.power.state ≠ .restore) ∧
        (r.displayed ≠ 0 → c.last ≠ r.number →
          t.totals r.hose = c.add r ∧ t.power.state = .restore ∧ t.power.summary.next = none ∧
          t.store.inFlight = some ⟨.totals r.hose (c.add r), t.now + 1, false⟩ ∧ t.store.queue = [] ∧
          (x = .ended r → (t.point p).stack = [] ∧ t.power.summary.recovered = []) ∧
          (x = .power r → (t.point p).stack = [{ r with recovered := true }] ∧
            t.power.summary.recovered = [⟨p, r.number⟩] ∧ t.noted (.sale p))))) ∧
  (∀ (s : State) (w : InFlight), s.store.inFlight = some w → s.power.state = .restore → s.power.restoreWaiting = false →
    (s.point .a).state = .closed → (s.point .b).state = .closed →
    (∀ r rest, s.store.queue = r :: rest → ∃ t, exec .recordWriteComplete s = .next t ∧ t.power.state = .restore) ∧
    (s.store.queue = [] → (s.power.policy = .hold ∨ (s.power.loaded ≠ .run ∧ s.power.loaded ≠ .waking)) →
      ∃ t, exec .recordWriteComplete s = .next t ∧ t.power.state = .standby ∧ t.power.summary.next = some .standby ∧
        t.power.resetSeen = false ∧ t.power.pendingPrice = false ∧
        t.link.lossDue = (if s.link.timeout = 0 then none else some (t.now + s.link.timeout * 1000)) ∧
        t.recording .power ∧ t.noted .power) ∧
    (s.store.queue = [] → s.power.policy = .resume → (s.power.loaded = .run ∨ s.power.loaded = .waking) →
      ∃ t, exec .recordWriteComplete s = .next t ∧ t.power.summary.next = some .waking ∧ t.power.resetSeen = false ∧
        t.power.pendingPrice = false ∧ t.noted .power ∧
        (∀ x rest, s.power.table = x :: rest → x.action = .heater .a → x.wait = .delay → x.time ≠ 0 →
          t.power.state = .waking ∧ t.power.stepIndex = 1)))
end

