-- ==== Sys2Proof/Laws/State.lean ====
section
/-! SUPPORT. What each named update leaves in each field of State, one lemma for each pair, all true by definition, and the
reads that the fields hold several of (points, heads, meters, captures, totals). -/

namespace Sys2Proof.Machine

variable (s : State)

/-! ### withNow -/

@[simp] theorem State.withNow_now (x : Nat) : (s.withNow x).now = x := rfl
@[simp] theorem State.withNow_pins (x : Nat) : (s.withNow x).pins = s.pins := rfl
@[simp] theorem State.withNow_points (x : Nat) : (s.withNow x).points = s.points := rfl
@[simp] theorem State.withNow_arbiter (x : Nat) : (s.withNow x).arbiter = s.arbiter := rfl
@[simp] theorem State.withNow_metrology (x : Nat) : (s.withNow x).metrology = s.metrology := rfl
@[simp] theorem State.withNow_meters (x : Nat) : (s.withNow x).meters = s.meters := rfl
@[simp] theorem State.withNow_prices (x : Nat) : (s.withNow x).prices = s.prices := rfl
@[simp] theorem State.withNow_heads (x : Nat) : (s.withNow x).heads = s.heads := rfl
@[simp] theorem State.withNow_card (x : Nat) : (s.withNow x).card = s.card := rfl
@[simp] theorem State.withNow_captures (x : Nat) : (s.withNow x).captures = s.captures := rfl
@[simp] theorem State.withNow_store (x : Nat) : (s.withNow x).store = s.store := rfl
@[simp] theorem State.withNow_power (x : Nat) : (s.withNow x).power = s.power := rfl
@[simp] theorem State.withNow_link (x : Nat) : (s.withNow x).link = s.link := rfl
@[simp] theorem State.withNow_pending (x : Nat) : (s.withNow x).pending = s.pending := rfl
@[simp] theorem State.withNow_point (x : Nat) (p : Side) : (s.withNow x).point p = s.point p := rfl
@[simp] theorem State.withNow_head (x : Nat) (p : Side) : (s.withNow x).head p = s.head p := rfl
@[simp] theorem State.withNow_meter (x : Nat) (m : Meter) : (s.withNow x).meter m = s.meter m := rfl
@[simp] theorem State.withNow_capture (x : Nat) (d : Domain) : (s.withNow x).capture d = s.capture d := rfl
@[simp] theorem State.withNow_hose (x : Nat) (h : Slot) : (s.withNow x).hose h = s.hose h := rfl
@[simp] theorem State.withNow_meterSettings (x : Nat) (m : Meter) : (s.withNow x).meterSettings m = s.meterSettings m := rfl
@[simp] theorem State.withNow_totals (x : Nat) (h : Slot) : (s.withNow x).totals h = s.totals h := rfl
@[simp] theorem State.withNow_running (x : Nat) : (s.withNow x).running = s.running := rfl
@[simp] theorem State.withNow_watching (x : Nat) : (s.withNow x).watching = s.watching := rfl
@[simp] theorem State.withNow_lossTimed (x : Nat) : (s.withNow x).lossTimed = s.lossTimed := rfl
@[simp] theorem State.withNow_delivering (x : Nat) : (s.withNow x).delivering = s.delivering := rfl

/-! ### withPins -/

@[simp] theorem State.withPins_now (x : Pins) : (s.withPins x).now = s.now := rfl
@[simp] theorem State.withPins_pins (x : Pins) : (s.withPins x).pins = x := rfl
@[simp] theorem State.withPins_points (x : Pins) : (s.withPins x).points = s.points := rfl
@[simp] theorem State.withPins_arbiter (x : Pins) : (s.withPins x).arbiter = s.arbiter := rfl
@[simp] theorem State.withPins_metrology (x : Pins) : (s.withPins x).metrology = s.metrology := rfl
@[simp] theorem State.withPins_meters (x : Pins) : (s.withPins x).meters = s.meters := rfl
@[simp] theorem State.withPins_prices (x : Pins) : (s.withPins x).prices = s.prices := rfl
@[simp] theorem State.withPins_heads (x : Pins) : (s.withPins x).heads = s.heads := rfl
@[simp] theorem State.withPins_card (x : Pins) : (s.withPins x).card = s.card := rfl
@[simp] theorem State.withPins_captures (x : Pins) : (s.withPins x).captures = s.captures := rfl
@[simp] theorem State.withPins_store (x : Pins) : (s.withPins x).store = s.store := rfl
@[simp] theorem State.withPins_power (x : Pins) : (s.withPins x).power = s.power := rfl
@[simp] theorem State.withPins_link (x : Pins) : (s.withPins x).link = s.link := rfl
@[simp] theorem State.withPins_pending (x : Pins) : (s.withPins x).pending = s.pending := rfl
@[simp] theorem State.withPins_point (x : Pins) (p : Side) : (s.withPins x).point p = s.point p := rfl
@[simp] theorem State.withPins_head (x : Pins) (p : Side) : (s.withPins x).head p = s.head p := rfl
@[simp] theorem State.withPins_meter (x : Pins) (m : Meter) : (s.withPins x).meter m = s.meter m := rfl
@[simp] theorem State.withPins_capture (x : Pins) (d : Domain) : (s.withPins x).capture d = s.capture d := rfl
@[simp] theorem State.withPins_hose (x : Pins) (h : Slot) : (s.withPins x).hose h = s.hose h := rfl
@[simp] theorem State.withPins_meterSettings (x : Pins) (m : Meter) : (s.withPins x).meterSettings m = s.meterSettings m := rfl
@[simp] theorem State.withPins_totals (x : Pins) (h : Slot) : (s.withPins x).totals h = s.totals h := rfl
@[simp] theorem State.withPins_running (x : Pins) : (s.withPins x).running = s.running := rfl
@[simp] theorem State.withPins_watching (x : Pins) : (s.withPins x).watching = s.watching := rfl
@[simp] theorem State.withPins_lossTimed (x : Pins) : (s.withPins x).lossTimed = s.lossTimed := rfl
@[simp] theorem State.withPins_delivering (x : Pins) : (s.withPins x).delivering = s.delivering := rfl

/-! ### withPoints -/

@[simp] theorem State.withPoints_now (x : Sides Point) : (s.withPoints x).now = s.now := rfl
@[simp] theorem State.withPoints_pins (x : Sides Point) : (s.withPoints x).pins = s.pins := rfl
@[simp] theorem State.withPoints_points (x : Sides Point) : (s.withPoints x).points = x := rfl
@[simp] theorem State.withPoints_arbiter (x : Sides Point) : (s.withPoints x).arbiter = s.arbiter := rfl
@[simp] theorem State.withPoints_metrology (x : Sides Point) : (s.withPoints x).metrology = s.metrology := rfl
@[simp] theorem State.withPoints_meters (x : Sides Point) : (s.withPoints x).meters = s.meters := rfl
@[simp] theorem State.withPoints_prices (x : Sides Point) : (s.withPoints x).prices = s.prices := rfl
@[simp] theorem State.withPoints_heads (x : Sides Point) : (s.withPoints x).heads = s.heads := rfl
@[simp] theorem State.withPoints_card (x : Sides Point) : (s.withPoints x).card = s.card := rfl
@[simp] theorem State.withPoints_captures (x : Sides Point) : (s.withPoints x).captures = s.captures := rfl
@[simp] theorem State.withPoints_store (x : Sides Point) : (s.withPoints x).store = s.store := rfl
@[simp] theorem State.withPoints_power (x : Sides Point) : (s.withPoints x).power = s.power := rfl
@[simp] theorem State.withPoints_link (x : Sides Point) : (s.withPoints x).link = s.link := rfl
@[simp] theorem State.withPoints_pending (x : Sides Point) : (s.withPoints x).pending = s.pending := rfl
@[simp] theorem State.withPoints_head (x : Sides Point) (p : Side) : (s.withPoints x).head p = s.head p := rfl
@[simp] theorem State.withPoints_meter (x : Sides Point) (m : Meter) : (s.withPoints x).meter m = s.meter m := rfl
@[simp] theorem State.withPoints_capture (x : Sides Point) (d : Domain) : (s.withPoints x).capture d = s.capture d := rfl
@[simp] theorem State.withPoints_hose (x : Sides Point) (h : Slot) : (s.withPoints x).hose h = s.hose h := rfl
@[simp] theorem State.withPoints_meterSettings (x : Sides Point) (m : Meter) : (s.withPoints x).meterSettings m = s.meterSettings m := rfl
@[simp] theorem State.withPoints_totals (x : Sides Point) (h : Slot) : (s.withPoints x).totals h = s.totals h := rfl
@[simp] theorem State.withPoints_running (x : Sides Point) : (s.withPoints x).running = s.running := rfl
@[simp] theorem State.withPoints_watching (x : Sides Point) : (s.withPoints x).watching = s.watching := rfl
@[simp] theorem State.withPoints_lossTimed (x : Sides Point) : (s.withPoints x).lossTimed = s.lossTimed := rfl
@[simp] theorem State.withPoints_delivering (x : Sides Point) : (s.withPoints x).delivering = s.delivering := rfl

/-! ### withArbiter -/

@[simp] theorem State.withArbiter_now (x : Arbiter) : (s.withArbiter x).now = s.now := rfl
@[simp] theorem State.withArbiter_pins (x : Arbiter) : (s.withArbiter x).pins = s.pins := rfl
@[simp] theorem State.withArbiter_points (x : Arbiter) : (s.withArbiter x).points = s.points := rfl
@[simp] theorem State.withArbiter_arbiter (x : Arbiter) : (s.withArbiter x).arbiter = x := rfl
@[simp] theorem State.withArbiter_metrology (x : Arbiter) : (s.withArbiter x).metrology = s.metrology := rfl
@[simp] theorem State.withArbiter_meters (x : Arbiter) : (s.withArbiter x).meters = s.meters := rfl
@[simp] theorem State.withArbiter_prices (x : Arbiter) : (s.withArbiter x).prices = s.prices := rfl
@[simp] theorem State.withArbiter_heads (x : Arbiter) : (s.withArbiter x).heads = s.heads := rfl
@[simp] theorem State.withArbiter_card (x : Arbiter) : (s.withArbiter x).card = s.card := rfl
@[simp] theorem State.withArbiter_captures (x : Arbiter) : (s.withArbiter x).captures = s.captures := rfl
@[simp] theorem State.withArbiter_store (x : Arbiter) : (s.withArbiter x).store = s.store := rfl
@[simp] theorem State.withArbiter_power (x : Arbiter) : (s.withArbiter x).power = s.power := rfl
@[simp] theorem State.withArbiter_link (x : Arbiter) : (s.withArbiter x).link = s.link := rfl
@[simp] theorem State.withArbiter_pending (x : Arbiter) : (s.withArbiter x).pending = s.pending := rfl
@[simp] theorem State.withArbiter_point (x : Arbiter) (p : Side) : (s.withArbiter x).point p = s.point p := rfl
@[simp] theorem State.withArbiter_head (x : Arbiter) (p : Side) : (s.withArbiter x).head p = s.head p := rfl
@[simp] theorem State.withArbiter_meter (x : Arbiter) (m : Meter) : (s.withArbiter x).meter m = s.meter m := rfl
@[simp] theorem State.withArbiter_capture (x : Arbiter) (d : Domain) : (s.withArbiter x).capture d = s.capture d := rfl
@[simp] theorem State.withArbiter_hose (x : Arbiter) (h : Slot) : (s.withArbiter x).hose h = s.hose h := rfl
@[simp] theorem State.withArbiter_meterSettings (x : Arbiter) (m : Meter) : (s.withArbiter x).meterSettings m = s.meterSettings m := rfl
@[simp] theorem State.withArbiter_totals (x : Arbiter) (h : Slot) : (s.withArbiter x).totals h = s.totals h := rfl
@[simp] theorem State.withArbiter_running (x : Arbiter) : (s.withArbiter x).running = s.running := rfl
@[simp] theorem State.withArbiter_watching (x : Arbiter) : (s.withArbiter x).watching = s.watching := rfl
@[simp] theorem State.withArbiter_lossTimed (x : Arbiter) : (s.withArbiter x).lossTimed = s.lossTimed := rfl
@[simp] theorem State.withArbiter_delivering (x : Arbiter) : (s.withArbiter x).delivering = s.delivering := rfl

/-! ### withMetrology -/

@[simp] theorem State.withMetrology_now (x : Metrology) : (s.withMetrology x).now = s.now := rfl
@[simp] theorem State.withMetrology_pins (x : Metrology) : (s.withMetrology x).pins = s.pins := rfl
@[simp] theorem State.withMetrology_points (x : Metrology) : (s.withMetrology x).points = s.points := rfl
@[simp] theorem State.withMetrology_arbiter (x : Metrology) : (s.withMetrology x).arbiter = s.arbiter := rfl
@[simp] theorem State.withMetrology_metrology (x : Metrology) : (s.withMetrology x).metrology = x := rfl
@[simp] theorem State.withMetrology_meters (x : Metrology) : (s.withMetrology x).meters = s.meters := rfl
@[simp] theorem State.withMetrology_prices (x : Metrology) : (s.withMetrology x).prices = s.prices := rfl
@[simp] theorem State.withMetrology_heads (x : Metrology) : (s.withMetrology x).heads = s.heads := rfl
@[simp] theorem State.withMetrology_card (x : Metrology) : (s.withMetrology x).card = s.card := rfl
@[simp] theorem State.withMetrology_captures (x : Metrology) : (s.withMetrology x).captures = s.captures := rfl
@[simp] theorem State.withMetrology_store (x : Metrology) : (s.withMetrology x).store = s.store := rfl
@[simp] theorem State.withMetrology_power (x : Metrology) : (s.withMetrology x).power = s.power := rfl
@[simp] theorem State.withMetrology_link (x : Metrology) : (s.withMetrology x).link = s.link := rfl
@[simp] theorem State.withMetrology_pending (x : Metrology) : (s.withMetrology x).pending = s.pending := rfl
@[simp] theorem State.withMetrology_point (x : Metrology) (p : Side) : (s.withMetrology x).point p = s.point p := rfl
@[simp] theorem State.withMetrology_head (x : Metrology) (p : Side) : (s.withMetrology x).head p = s.head p := rfl
@[simp] theorem State.withMetrology_meter (x : Metrology) (m : Meter) : (s.withMetrology x).meter m = s.meter m := rfl
@[simp] theorem State.withMetrology_capture (x : Metrology) (d : Domain) : (s.withMetrology x).capture d = s.capture d := rfl
@[simp] theorem State.withMetrology_totals (x : Metrology) (h : Slot) : (s.withMetrology x).totals h = s.totals h := rfl
@[simp] theorem State.withMetrology_running (x : Metrology) : (s.withMetrology x).running = s.running := rfl
@[simp] theorem State.withMetrology_watching (x : Metrology) : (s.withMetrology x).watching = s.watching := rfl
@[simp] theorem State.withMetrology_lossTimed (x : Metrology) : (s.withMetrology x).lossTimed = s.lossTimed := rfl
@[simp] theorem State.withMetrology_delivering (x : Metrology) : (s.withMetrology x).delivering = s.delivering := rfl

/-! ### withMeters -/

@[simp] theorem State.withMeters_now (x : Meters) : (s.withMeters x).now = s.now := rfl
@[simp] theorem State.withMeters_pins (x : Meters) : (s.withMeters x).pins = s.pins := rfl
@[simp] theorem State.withMeters_points (x : Meters) : (s.withMeters x).points = s.points := rfl
@[simp] theorem State.withMeters_arbiter (x : Meters) : (s.withMeters x).arbiter = s.arbiter := rfl
@[simp] theorem State.withMeters_metrology (x : Meters) : (s.withMeters x).metrology = s.metrology := rfl
@[simp] theorem State.withMeters_meters (x : Meters) : (s.withMeters x).meters = x := rfl
@[simp] theorem State.withMeters_prices (x : Meters) : (s.withMeters x).prices = s.prices := rfl
@[simp] theorem State.withMeters_heads (x : Meters) : (s.withMeters x).heads = s.heads := rfl
@[simp] theorem State.withMeters_card (x : Meters) : (s.withMeters x).card = s.card := rfl
@[simp] theorem State.withMeters_captures (x : Meters) : (s.withMeters x).captures = s.captures := rfl
@[simp] theorem State.withMeters_store (x : Meters) : (s.withMeters x).store = s.store := rfl
@[simp] theorem State.withMeters_power (x : Meters) : (s.withMeters x).power = s.power := rfl
@[simp] theorem State.withMeters_link (x : Meters) : (s.withMeters x).link = s.link := rfl
@[simp] theorem State.withMeters_pending (x : Meters) : (s.withMeters x).pending = s.pending := rfl
@[simp] theorem State.withMeters_point (x : Meters) (p : Side) : (s.withMeters x).point p = s.point p := rfl
@[simp] theorem State.withMeters_head (x : Meters) (p : Side) : (s.withMeters x).head p = s.head p := rfl
@[simp] theorem State.withMeters_capture (x : Meters) (d : Domain) : (s.withMeters x).capture d = s.capture d := rfl
@[simp] theorem State.withMeters_hose (x : Meters) (h : Slot) : (s.withMeters x).hose h = s.hose h := rfl
@[simp] theorem State.withMeters_meterSettings (x : Meters) (m : Meter) : (s.withMeters x).meterSettings m = s.meterSettings m := rfl
@[simp] theorem State.withMeters_totals (x : Meters) (h : Slot) : (s.withMeters x).totals h = s.totals h := rfl
@[simp] theorem State.withMeters_running (x : Meters) : (s.withMeters x).running = s.running := rfl
@[simp] theorem State.withMeters_watching (x : Meters) : (s.withMeters x).watching = s.watching := rfl
@[simp] theorem State.withMeters_lossTimed (x : Meters) : (s.withMeters x).lossTimed = s.lossTimed := rfl
@[simp] theorem State.withMeters_delivering (x : Meters) : (s.withMeters x).delivering = s.delivering := rfl

/-! ### withPrices -/

@[simp] theorem State.withPrices_now (x : PriceTable) : (s.withPrices x).now = s.now := rfl
@[simp] theorem State.withPrices_pins (x : PriceTable) : (s.withPrices x).pins = s.pins := rfl
@[simp] theorem State.withPrices_points (x : PriceTable) : (s.withPrices x).points = s.points := rfl
@[simp] theorem State.withPrices_arbiter (x : PriceTable) : (s.withPrices x).arbiter = s.arbiter := rfl
@[simp] theorem State.withPrices_metrology (x : PriceTable) : (s.withPrices x).metrology = s.metrology := rfl
@[simp] theorem State.withPrices_meters (x : PriceTable) : (s.withPrices x).meters = s.meters := rfl
@[simp] theorem State.withPrices_prices (x : PriceTable) : (s.withPrices x).prices = x := rfl
@[simp] theorem State.withPrices_heads (x : PriceTable) : (s.withPrices x).heads = s.heads := rfl
@[simp] theorem State.withPrices_card (x : PriceTable) : (s.withPrices x).card = s.card := rfl
@[simp] theorem State.withPrices_captures (x : PriceTable) : (s.withPrices x).captures = s.captures := rfl
@[simp] theorem State.withPrices_store (x : PriceTable) : (s.withPrices x).store = s.store := rfl
@[simp] theorem State.withPrices_power (x : PriceTable) : (s.withPrices x).power = s.power := rfl
@[simp] theorem State.withPrices_link (x : PriceTable) : (s.withPrices x).link = s.link := rfl
@[simp] theorem State.withPrices_pending (x : PriceTable) : (s.withPrices x).pending = s.pending := rfl
@[simp] theorem State.withPrices_point (x : PriceTable) (p : Side) : (s.withPrices x).point p = s.point p := rfl
@[simp] theorem State.withPrices_head (x : PriceTable) (p : Side) : (s.withPrices x).head p = s.head p := rfl
@[simp] theorem State.withPrices_meter (x : PriceTable) (m : Meter) : (s.withPrices x).meter m = s.meter m := rfl
@[simp] theorem State.withPrices_capture (x : PriceTable) (d : Domain) : (s.withPrices x).capture d = s.capture d := rfl
@[simp] theorem State.withPrices_hose (x : PriceTable) (h : Slot) : (s.withPrices x).hose h = s.hose h := rfl
@[simp] theorem State.withPrices_meterSettings (x : PriceTable) (m : Meter) : (s.withPrices x).meterSettings m = s.meterSettings m := rfl
@[simp] theorem State.withPrices_totals (x : PriceTable) (h : Slot) : (s.withPrices x).totals h = s.totals h := rfl
@[simp] theorem State.withPrices_running (x : PriceTable) : (s.withPrices x).running = s.running := rfl
@[simp] theorem State.withPrices_watching (x : PriceTable) : (s.withPrices x).watching = s.watching := rfl
@[simp] theorem State.withPrices_lossTimed (x : PriceTable) : (s.withPrices x).lossTimed = s.lossTimed := rfl
@[simp] theorem State.withPrices_delivering (x : PriceTable) : (s.withPrices x).delivering = s.delivering := rfl

/-! ### withHeads -/

@[simp] theorem State.withHeads_now (x : Sides Head) : (s.withHeads x).now = s.now := rfl
@[simp] theorem State.withHeads_pins (x : Sides Head) : (s.withHeads x).pins = s.pins := rfl
@[simp] theorem State.withHeads_points (x : Sides Head) : (s.withHeads x).points = s.points := rfl
@[simp] theorem State.withHeads_arbiter (x : Sides Head) : (s.withHeads x).arbiter = s.arbiter := rfl
@[simp] theorem State.withHeads_metrology (x : Sides Head) : (s.withHeads x).metrology = s.metrology := rfl
@[simp] theorem State.withHeads_meters (x : Sides Head) : (s.withHeads x).meters = s.meters := rfl
@[simp] theorem State.withHeads_prices (x : Sides Head) : (s.withHeads x).prices = s.prices := rfl
@[simp] theorem State.withHeads_heads (x : Sides Head) : (s.withHeads x).heads = x := rfl
@[simp] theorem State.withHeads_card (x : Sides Head) : (s.withHeads x).card = s.card := rfl
@[simp] theorem State.withHeads_captures (x : Sides Head) : (s.withHeads x).captures = s.captures := rfl
@[simp] theorem State.withHeads_store (x : Sides Head) : (s.withHeads x).store = s.store := rfl
@[simp] theorem State.withHeads_power (x : Sides Head) : (s.withHeads x).power = s.power := rfl
@[simp] theorem State.withHeads_link (x : Sides Head) : (s.withHeads x).link = s.link := rfl
@[simp] theorem State.withHeads_pending (x : Sides Head) : (s.withHeads x).pending = s.pending := rfl
@[simp] theorem State.withHeads_point (x : Sides Head) (p : Side) : (s.withHeads x).point p = s.point p := rfl
@[simp] theorem State.withHeads_meter (x : Sides Head) (m : Meter) : (s.withHeads x).meter m = s.meter m := rfl
@[simp] theorem State.withHeads_capture (x : Sides Head) (d : Domain) : (s.withHeads x).capture d = s.capture d := rfl
@[simp] theorem State.withHeads_hose (x : Sides Head) (h : Slot) : (s.withHeads x).hose h = s.hose h := rfl
@[simp] theorem State.withHeads_meterSettings (x : Sides Head) (m : Meter) : (s.withHeads x).meterSettings m = s.meterSettings m := rfl
@[simp] theorem State.withHeads_totals (x : Sides Head) (h : Slot) : (s.withHeads x).totals h = s.totals h := rfl
@[simp] theorem State.withHeads_running (x : Sides Head) : (s.withHeads x).running = s.running := rfl
@[simp] theorem State.withHeads_watching (x : Sides Head) : (s.withHeads x).watching = s.watching := rfl
@[simp] theorem State.withHeads_lossTimed (x : Sides Head) : (s.withHeads x).lossTimed = s.lossTimed := rfl
@[simp] theorem State.withHeads_delivering (x : Sides Head) : (s.withHeads x).delivering = s.delivering := rfl

/-! ### withCard -/

@[simp] theorem State.withCard_now (x : CardChannel) : (s.withCard x).now = s.now := rfl
@[simp] theorem State.withCard_pins (x : CardChannel) : (s.withCard x).pins = s.pins := rfl
@[simp] theorem State.withCard_points (x : CardChannel) : (s.withCard x).points = s.points := rfl
@[simp] theorem State.withCard_arbiter (x : CardChannel) : (s.withCard x).arbiter = s.arbiter := rfl
@[simp] theorem State.withCard_metrology (x : CardChannel) : (s.withCard x).metrology = s.metrology := rfl
@[simp] theorem State.withCard_meters (x : CardChannel) : (s.withCard x).meters = s.meters := rfl
@[simp] theorem State.withCard_prices (x : CardChannel) : (s.withCard x).prices = s.prices := rfl
@[simp] theorem State.withCard_heads (x : CardChannel) : (s.withCard x).heads = s.heads := rfl
@[simp] theorem State.withCard_card (x : CardChannel) : (s.withCard x).card = x := rfl
@[simp] theorem State.withCard_captures (x : CardChannel) : (s.withCard x).captures = s.captures := rfl
@[simp] theorem State.withCard_store (x : CardChannel) : (s.withCard x).store = s.store := rfl
@[simp] theorem State.withCard_power (x : CardChannel) : (s.withCard x).power = s.power := rfl
@[simp] theorem State.withCard_link (x : CardChannel) : (s.withCard x).link = s.link := rfl
@[simp] theorem State.withCard_pending (x : CardChannel) : (s.withCard x).pending = s.pending := rfl
@[simp] theorem State.withCard_point (x : CardChannel) (p : Side) : (s.withCard x).point p = s.point p := rfl
@[simp] theorem State.withCard_head (x : CardChannel) (p : Side) : (s.withCard x).head p = s.head p := rfl
@[simp] theorem State.withCard_meter (x : CardChannel) (m : Meter) : (s.withCard x).meter m = s.meter m := rfl
@[simp] theorem State.withCard_capture (x : CardChannel) (d : Domain) : (s.withCard x).capture d = s.capture d := rfl
@[simp] theorem State.withCard_hose (x : CardChannel) (h : Slot) : (s.withCard x).hose h = s.hose h := rfl
@[simp] theorem State.withCard_meterSettings (x : CardChannel) (m : Meter) : (s.withCard x).meterSettings m = s.meterSettings m := rfl
@[simp] theorem State.withCard_totals (x : CardChannel) (h : Slot) : (s.withCard x).totals h = s.totals h := rfl
@[simp] theorem State.withCard_running (x : CardChannel) : (s.withCard x).running = s.running := rfl
@[simp] theorem State.withCard_watching (x : CardChannel) : (s.withCard x).watching = s.watching := rfl
@[simp] theorem State.withCard_lossTimed (x : CardChannel) : (s.withCard x).lossTimed = s.lossTimed := rfl
@[simp] theorem State.withCard_delivering (x : CardChannel) : (s.withCard x).delivering = s.delivering := rfl

/-! ### withCaptures -/

@[simp] theorem State.withCaptures_now (x : Captures) : (s.withCaptures x).now = s.now := rfl
@[simp] theorem State.withCaptures_pins (x : Captures) : (s.withCaptures x).pins = s.pins := rfl
@[simp] theorem State.withCaptures_points (x : Captures) : (s.withCaptures x).points = s.points := rfl
@[simp] theorem State.withCaptures_arbiter (x : Captures) : (s.withCaptures x).arbiter = s.arbiter := rfl
@[simp] theorem State.withCaptures_metrology (x : Captures) : (s.withCaptures x).metrology = s.metrology := rfl
@[simp] theorem State.withCaptures_meters (x : Captures) : (s.withCaptures x).meters = s.meters := rfl
@[simp] theorem State.withCaptures_prices (x : Captures) : (s.withCaptures x).prices = s.prices := rfl
@[simp] theorem State.withCaptures_heads (x : Captures) : (s.withCaptures x).heads = s.heads := rfl
@[simp] theorem State.withCaptures_card (x : Captures) : (s.withCaptures x).card = s.card := rfl
@[simp] theorem State.withCaptures_captures (x : Captures) : (s.withCaptures x).captures = x := rfl
@[simp] theorem State.withCaptures_store (x : Captures) : (s.withCaptures x).store = s.store := rfl
@[simp] theorem State.withCaptures_power (x : Captures) : (s.withCaptures x).power = s.power := rfl
@[simp] theorem State.withCaptures_link (x : Captures) : (s.withCaptures x).link = s.link := rfl
@[simp] theorem State.withCaptures_pending (x : Captures) : (s.withCaptures x).pending = s.pending := rfl
@[simp] theorem State.withCaptures_point (x : Captures) (p : Side) : (s.withCaptures x).point p = s.point p := rfl
@[simp] theorem State.withCaptures_head (x : Captures) (p : Side) : (s.withCaptures x).head p = s.head p := rfl
@[simp] theorem State.withCaptures_meter (x : Captures) (m : Meter) : (s.withCaptures x).meter m = s.meter m := rfl
@[simp] theorem State.withCaptures_hose (x : Captures) (h : Slot) : (s.withCaptures x).hose h = s.hose h := rfl
@[simp] theorem State.withCaptures_meterSettings (x : Captures) (m : Meter) : (s.withCaptures x).meterSettings m = s.meterSettings m := rfl
@[simp] theorem State.withCaptures_totals (x : Captures) (h : Slot) : (s.withCaptures x).totals h = s.totals h := rfl
@[simp] theorem State.withCaptures_running (x : Captures) : (s.withCaptures x).running = s.running := rfl
@[simp] theorem State.withCaptures_watching (x : Captures) : (s.withCaptures x).watching = s.watching := rfl
@[simp] theorem State.withCaptures_lossTimed (x : Captures) : (s.withCaptures x).lossTimed = s.lossTimed := rfl
@[simp] theorem State.withCaptures_delivering (x : Captures) : (s.withCaptures x).delivering = s.delivering := rfl

/-! ### withStore -/

@[simp] theorem State.withStore_now (x : Store) : (s.withStore x).now = s.now := rfl
@[simp] theorem State.withStore_pins (x : Store) : (s.withStore x).pins = s.pins := rfl
@[simp] theorem State.withStore_points (x : Store) : (s.withStore x).points = s.points := rfl
@[simp] theorem State.withStore_arbiter (x : Store) : (s.withStore x).arbiter = s.arbiter := rfl
@[simp] theorem State.withStore_metrology (x : Store) : (s.withStore x).metrology = s.metrology := rfl
@[simp] theorem State.withStore_meters (x : Store) : (s.withStore x).meters = s.meters := rfl
@[simp] theorem State.withStore_prices (x : Store) : (s.withStore x).prices = s.prices := rfl
@[simp] theorem State.withStore_heads (x : Store) : (s.withStore x).heads = s.heads := rfl
@[simp] theorem State.withStore_card (x : Store) : (s.withStore x).card = s.card := rfl
@[simp] theorem State.withStore_captures (x : Store) : (s.withStore x).captures = s.captures := rfl
@[simp] theorem State.withStore_store (x : Store) : (s.withStore x).store = x := rfl
@[simp] theorem State.withStore_power (x : Store) : (s.withStore x).power = s.power := rfl
@[simp] theorem State.withStore_link (x : Store) : (s.withStore x).link = s.link := rfl
@[simp] theorem State.withStore_pending (x : Store) : (s.withStore x).pending = s.pending := rfl
@[simp] theorem State.withStore_point (x : Store) (p : Side) : (s.withStore x).point p = s.point p := rfl
@[simp] theorem State.withStore_head (x : Store) (p : Side) : (s.withStore x).head p = s.head p := rfl
@[simp] theorem State.withStore_meter (x : Store) (m : Meter) : (s.withStore x).meter m = s.meter m := rfl
@[simp] theorem State.withStore_capture (x : Store) (d : Domain) : (s.withStore x).capture d = s.capture d := rfl
@[simp] theorem State.withStore_hose (x : Store) (h : Slot) : (s.withStore x).hose h = s.hose h := rfl
@[simp] theorem State.withStore_meterSettings (x : Store) (m : Meter) : (s.withStore x).meterSettings m = s.meterSettings m := rfl
@[simp] theorem State.withStore_running (x : Store) : (s.withStore x).running = s.running := rfl
@[simp] theorem State.withStore_watching (x : Store) : (s.withStore x).watching = s.watching := rfl
@[simp] theorem State.withStore_lossTimed (x : Store) : (s.withStore x).lossTimed = s.lossTimed := rfl
@[simp] theorem State.withStore_delivering (x : Store) : (s.withStore x).delivering = s.delivering := rfl

/-! ### withPower -/

@[simp] theorem State.withPower_now (x : PowerController) : (s.withPower x).now = s.now := rfl
@[simp] theorem State.withPower_pins (x : PowerController) : (s.withPower x).pins = s.pins := rfl
@[simp] theorem State.withPower_points (x : PowerController) : (s.withPower x).points = s.points := rfl
@[simp] theorem State.withPower_arbiter (x : PowerController) : (s.withPower x).arbiter = s.arbiter := rfl
@[simp] theorem State.withPower_metrology (x : PowerController) : (s.withPower x).metrology = s.metrology := rfl
@[simp] theorem State.withPower_meters (x : PowerController) : (s.withPower x).meters = s.meters := rfl
@[simp] theorem State.withPower_prices (x : PowerController) : (s.withPower x).prices = s.prices := rfl
@[simp] theorem State.withPower_heads (x : PowerController) : (s.withPower x).heads = s.heads := rfl
@[simp] theorem State.withPower_card (x : PowerController) : (s.withPower x).card = s.card := rfl
@[simp] theorem State.withPower_captures (x : PowerController) : (s.withPower x).captures = s.captures := rfl
@[simp] theorem State.withPower_store (x : PowerController) : (s.withPower x).store = s.store := rfl
@[simp] theorem State.withPower_power (x : PowerController) : (s.withPower x).power = x := rfl
@[simp] theorem State.withPower_link (x : PowerController) : (s.withPower x).link = s.link := rfl
@[simp] theorem State.withPower_pending (x : PowerController) : (s.withPower x).pending = s.pending := rfl
@[simp] theorem State.withPower_point (x : PowerController) (p : Side) : (s.withPower x).point p = s.point p := rfl
@[simp] theorem State.withPower_head (x : PowerController) (p : Side) : (s.withPower x).head p = s.head p := rfl
@[simp] theorem State.withPower_meter (x : PowerController) (m : Meter) : (s.withPower x).meter m = s.meter m := rfl
@[simp] theorem State.withPower_capture (x : PowerController) (d : Domain) : (s.withPower x).capture d = s.capture d := rfl
@[simp] theorem State.withPower_hose (x : PowerController) (h : Slot) : (s.withPower x).hose h = s.hose h := rfl
@[simp] theorem State.withPower_meterSettings (x : PowerController) (m : Meter) : (s.withPower x).meterSettings m = s.meterSettings m := rfl
@[simp] theorem State.withPower_totals (x : PowerController) (h : Slot) : (s.withPower x).totals h = s.totals h := rfl

/-! ### withLink -/

@[simp] theorem State.withLink_now (x : LinkPort) : (s.withLink x).now = s.now := rfl
@[simp] theorem State.withLink_pins (x : LinkPort) : (s.withLink x).pins = s.pins := rfl
@[simp] theorem State.withLink_points (x : LinkPort) : (s.withLink x).points = s.points := rfl
@[simp] theorem State.withLink_arbiter (x : LinkPort) : (s.withLink x).arbiter = s.arbiter := rfl
@[simp] theorem State.withLink_metrology (x : LinkPort) : (s.withLink x).metrology = s.metrology := rfl
@[simp] theorem State.withLink_meters (x : LinkPort) : (s.withLink x).meters = s.meters := rfl
@[simp] theorem State.withLink_prices (x : LinkPort) : (s.withLink x).prices = s.prices := rfl
@[simp] theorem State.withLink_heads (x : LinkPort) : (s.withLink x).heads = s.heads := rfl
@[simp] theorem State.withLink_card (x : LinkPort) : (s.withLink x).card = s.card := rfl
@[simp] theorem State.withLink_captures (x : LinkPort) : (s.withLink x).captures = s.captures := rfl
@[simp] theorem State.withLink_store (x : LinkPort) : (s.withLink x).store = s.store := rfl
@[simp] theorem State.withLink_power (x : LinkPort) : (s.withLink x).power = s.power := rfl
@[simp] theorem State.withLink_link (x : LinkPort) : (s.withLink x).link = x := rfl
@[simp] theorem State.withLink_pending (x : LinkPort) : (s.withLink x).pending = s.pending := rfl
@[simp] theorem State.withLink_point (x : LinkPort) (p : Side) : (s.withLink x).point p = s.point p := rfl
@[simp] theorem State.withLink_head (x : LinkPort) (p : Side) : (s.withLink x).head p = s.head p := rfl
@[simp] theorem State.withLink_meter (x : LinkPort) (m : Meter) : (s.withLink x).meter m = s.meter m := rfl
@[simp] theorem State.withLink_capture (x : LinkPort) (d : Domain) : (s.withLink x).capture d = s.capture d := rfl
@[simp] theorem State.withLink_hose (x : LinkPort) (h : Slot) : (s.withLink x).hose h = s.hose h := rfl
@[simp] theorem State.withLink_meterSettings (x : LinkPort) (m : Meter) : (s.withLink x).meterSettings m = s.meterSettings m := rfl
@[simp] theorem State.withLink_totals (x : LinkPort) (h : Slot) : (s.withLink x).totals h = s.totals h := rfl
@[simp] theorem State.withLink_running (x : LinkPort) : (s.withLink x).running = s.running := rfl
@[simp] theorem State.withLink_watching (x : LinkPort) : (s.withLink x).watching = s.watching := rfl
@[simp] theorem State.withLink_lossTimed (x : LinkPort) : (s.withLink x).lossTimed = s.lossTimed := rfl
@[simp] theorem State.withLink_delivering (x : LinkPort) : (s.withLink x).delivering = s.delivering := rfl

/-! ### withPending -/

@[simp] theorem State.withPending_now (x : List Instr) : (s.withPending x).now = s.now := rfl
@[simp] theorem State.withPending_pins (x : List Instr) : (s.withPending x).pins = s.pins := rfl
@[simp] theorem State.withPending_points (x : List Instr) : (s.withPending x).points = s.points := rfl
@[simp] theorem State.withPending_arbiter (x : List Instr) : (s.withPending x).arbiter = s.arbiter := rfl
@[simp] theorem State.withPending_metrology (x : List Instr) : (s.withPending x).metrology = s.metrology := rfl
@[simp] theorem State.withPending_meters (x : List Instr) : (s.withPending x).meters = s.meters := rfl
@[simp] theorem State.withPending_prices (x : List Instr) : (s.withPending x).prices = s.prices := rfl
@[simp] theorem State.withPending_heads (x : List Instr) : (s.withPending x).heads = s.heads := rfl
@[simp] theorem State.withPending_card (x : List Instr) : (s.withPending x).card = s.card := rfl
@[simp] theorem State.withPending_captures (x : List Instr) : (s.withPending x).captures = s.captures := rfl
@[simp] theorem State.withPending_store (x : List Instr) : (s.withPending x).store = s.store := rfl
@[simp] theorem State.withPending_power (x : List Instr) : (s.withPending x).power = s.power := rfl
@[simp] theorem State.withPending_link (x : List Instr) : (s.withPending x).link = s.link := rfl
@[simp] theorem State.withPending_pending (x : List Instr) : (s.withPending x).pending = x := rfl
@[simp] theorem State.withPending_point (x : List Instr) (p : Side) : (s.withPending x).point p = s.point p := rfl
@[simp] theorem State.withPending_head (x : List Instr) (p : Side) : (s.withPending x).head p = s.head p := rfl
@[simp] theorem State.withPending_meter (x : List Instr) (m : Meter) : (s.withPending x).meter m = s.meter m := rfl
@[simp] theorem State.withPending_capture (x : List Instr) (d : Domain) : (s.withPending x).capture d = s.capture d := rfl
@[simp] theorem State.withPending_hose (x : List Instr) (h : Slot) : (s.withPending x).hose h = s.hose h := rfl
@[simp] theorem State.withPending_meterSettings (x : List Instr) (m : Meter) : (s.withPending x).meterSettings m = s.meterSettings m := rfl
@[simp] theorem State.withPending_totals (x : List Instr) (h : Slot) : (s.withPending x).totals h = s.totals h := rfl
@[simp] theorem State.withPending_running (x : List Instr) : (s.withPending x).running = s.running := rfl
@[simp] theorem State.withPending_watching (x : List Instr) : (s.withPending x).watching = s.watching := rfl
@[simp] theorem State.withPending_lossTimed (x : List Instr) : (s.withPending x).lossTimed = s.lossTimed := rfl
@[simp] theorem State.withPending_delivering (x : List Instr) : (s.withPending x).delivering = s.delivering := rfl

/-! ### setPoint -/

@[simp] theorem State.setPoint_now (p : Side) (x : Point) : (s.setPoint p x).now = s.now := rfl
@[simp] theorem State.setPoint_pins (p : Side) (x : Point) : (s.setPoint p x).pins = s.pins := rfl
@[simp] theorem State.setPoint_points (p : Side) (x : Point) : (s.setPoint p x).points = s.points.set p x := rfl
@[simp] theorem State.setPoint_arbiter (p : Side) (x : Point) : (s.setPoint p x).arbiter = s.arbiter := rfl
@[simp] theorem State.setPoint_metrology (p : Side) (x : Point) : (s.setPoint p x).metrology = s.metrology := rfl
@[simp] theorem State.setPoint_meters (p : Side) (x : Point) : (s.setPoint p x).meters = s.meters := rfl
@[simp] theorem State.setPoint_prices (p : Side) (x : Point) : (s.setPoint p x).prices = s.prices := rfl
@[simp] theorem State.setPoint_heads (p : Side) (x : Point) : (s.setPoint p x).heads = s.heads := rfl
@[simp] theorem State.setPoint_card (p : Side) (x : Point) : (s.setPoint p x).card = s.card := rfl
@[simp] theorem State.setPoint_captures (p : Side) (x : Point) : (s.setPoint p x).captures = s.captures := rfl
@[simp] theorem State.setPoint_store (p : Side) (x : Point) : (s.setPoint p x).store = s.store := rfl
@[simp] theorem State.setPoint_power (p : Side) (x : Point) : (s.setPoint p x).power = s.power := rfl
@[simp] theorem State.setPoint_link (p : Side) (x : Point) : (s.setPoint p x).link = s.link := rfl
@[simp] theorem State.setPoint_pending (p : Side) (x : Point) : (s.setPoint p x).pending = s.pending := rfl
@[simp] theorem State.setPoint_head (p : Side) (x : Point) (q : Side) : (s.setPoint p x).head q = s.head q := rfl
@[simp] theorem State.setPoint_meter (p : Side) (x : Point) (n : Meter) : (s.setPoint p x).meter n = s.meter n := rfl
@[simp] theorem State.setPoint_capture (p : Side) (x : Point) (e : Domain) : (s.setPoint p x).capture e = s.capture e := rfl
@[simp] theorem State.setPoint_hose (p : Side) (x : Point) (k : Slot) : (s.setPoint p x).hose k = s.hose k := rfl
@[simp] theorem State.setPoint_meterSettings (p : Side) (x : Point) (n : Meter) : (s.setPoint p x).meterSettings n = s.meterSettings n := rfl
@[simp] theorem State.setPoint_totals (p : Side) (x : Point) (k : Slot) : (s.setPoint p x).totals k = s.totals k := rfl
@[simp] theorem State.setPoint_running (p : Side) (x : Point) : (s.setPoint p x).running = s.running := rfl
@[simp] theorem State.setPoint_watching (p : Side) (x : Point) : (s.setPoint p x).watching = s.watching := rfl
@[simp] theorem State.setPoint_lossTimed (p : Side) (x : Point) : (s.setPoint p x).lossTimed = s.lossTimed := rfl
@[simp] theorem State.setPoint_delivering (p : Side) (x : Point) : (s.setPoint p x).delivering = s.delivering := rfl

/-! ### setHead -/

@[simp] theorem State.setHead_now (p : Side) (x : Head) : (s.setHead p x).now = s.now := rfl
@[simp] theorem State.setHead_pins (p : Side) (x : Head) : (s.setHead p x).pins = s.pins := rfl
@[simp] theorem State.setHead_points (p : Side) (x : Head) : (s.setHead p x).points = s.points := rfl
@[simp] theorem State.setHead_arbiter (p : Side) (x : Head) : (s.setHead p x).arbiter = s.arbiter := rfl
@[simp] theorem State.setHead_metrology (p : Side) (x : Head) : (s.setHead p x).metrology = s.metrology := rfl
@[simp] theorem State.setHead_meters (p : Side) (x : Head) : (s.setHead p x).meters = s.meters := rfl
@[simp] theorem State.setHead_prices (p : Side) (x : Head) : (s.setHead p x).prices = s.prices := rfl
@[simp] theorem State.setHead_heads (p : Side) (x : Head) : (s.setHead p x).heads = s.heads.set p x := rfl
@[simp] theorem State.setHead_card (p : Side) (x : Head) : (s.setHead p x).card = s.card := rfl
@[simp] theorem State.setHead_captures (p : Side) (x : Head) : (s.setHead p x).captures = s.captures := rfl
@[simp] theorem State.setHead_store (p : Side) (x : Head) : (s.setHead p x).store = s.store := rfl
@[simp] theorem State.setHead_power (p : Side) (x : Head) : (s.setHead p x).power = s.power := rfl
@[simp] theorem State.setHead_link (p : Side) (x : Head) : (s.setHead p x).link = s.link := rfl
@[simp] theorem State.setHead_pending (p : Side) (x : Head) : (s.setHead p x).pending = s.pending := rfl
@[simp] theorem State.setHead_point (p : Side) (x : Head) (q : Side) : (s.setHead p x).point q = s.point q := rfl
@[simp] theorem State.setHead_meter (p : Side) (x : Head) (n : Meter) : (s.setHead p x).meter n = s.meter n := rfl
@[simp] theorem State.setHead_capture (p : Side) (x : Head) (e : Domain) : (s.setHead p x).capture e = s.capture e := rfl
@[simp] theorem State.setHead_hose (p : Side) (x : Head) (k : Slot) : (s.setHead p x).hose k = s.hose k := rfl
@[simp] theorem State.setHead_meterSettings (p : Side) (x : Head) (n : Meter) : (s.setHead p x).meterSettings n = s.meterSettings n := rfl
@[simp] theorem State.setHead_totals (p : Side) (x : Head) (k : Slot) : (s.setHead p x).totals k = s.totals k := rfl
@[simp] theorem State.setHead_running (p : Side) (x : Head) : (s.setHead p x).running = s.running := rfl
@[simp] theorem State.setHead_watching (p : Side) (x : Head) : (s.setHead p x).watching = s.watching := rfl
@[simp] theorem State.setHead_lossTimed (p : Side) (x : Head) : (s.setHead p x).lossTimed = s.lossTimed := rfl
@[simp] theorem State.setHead_delivering (p : Side) (x : Head) : (s.setHead p x).delivering = s.delivering := rfl

/-! ### setMeter -/

@[simp] theorem State.setMeter_now (m : Meter) (x : MeterUnit) : (s.setMeter m x).now = s.now := rfl
@[simp] theorem State.setMeter_pins (m : Meter) (x : MeterUnit) : (s.setMeter m x).pins = s.pins := rfl
@[simp] theorem State.setMeter_points (m : Meter) (x : MeterUnit) : (s.setMeter m x).points = s.points := rfl
@[simp] theorem State.setMeter_arbiter (m : Meter) (x : MeterUnit) : (s.setMeter m x).arbiter = s.arbiter := rfl
@[simp] theorem State.setMeter_metrology (m : Meter) (x : MeterUnit) : (s.setMeter m x).metrology = s.metrology := rfl
@[simp] theorem State.setMeter_meters (m : Meter) (x : MeterUnit) : (s.setMeter m x).meters = { s.meters with units := s.meters.units.set m x } := rfl
@[simp] theorem State.setMeter_prices (m : Meter) (x : MeterUnit) : (s.setMeter m x).prices = s.prices := rfl
@[simp] theorem State.setMeter_heads (m : Meter) (x : MeterUnit) : (s.setMeter m x).heads = s.heads := rfl
@[simp] theorem State.setMeter_card (m : Meter) (x : MeterUnit) : (s.setMeter m x).card = s.card := rfl
@[simp] theorem State.setMeter_captures (m : Meter) (x : MeterUnit) : (s.setMeter m x).captures = s.captures := rfl
@[simp] theorem State.setMeter_store (m : Meter) (x : MeterUnit) : (s.setMeter m x).store = s.store := rfl
@[simp] theorem State.setMeter_power (m : Meter) (x : MeterUnit) : (s.setMeter m x).power = s.power := rfl
@[simp] theorem State.setMeter_link (m : Meter) (x : MeterUnit) : (s.setMeter m x).link = s.link := rfl
@[simp] theorem State.setMeter_pending (m : Meter) (x : MeterUnit) : (s.setMeter m x).pending = s.pending := rfl
@[simp] theorem State.setMeter_point (m : Meter) (x : MeterUnit) (q : Side) : (s.setMeter m x).point q = s.point q := rfl
@[simp] theorem State.setMeter_head (m : Meter) (x : MeterUnit) (q : Side) : (s.setMeter m x).head q = s.head q := rfl
@[simp] theorem State.setMeter_capture (m : Meter) (x : MeterUnit) (e : Domain) : (s.setMeter m x).capture e = s.capture e := rfl
@[simp] theorem State.setMeter_hose (m : Meter) (x : MeterUnit) (k : Slot) : (s.setMeter m x).hose k = s.hose k := rfl
@[simp] theorem State.setMeter_meterSettings (m : Meter) (x : MeterUnit) (n : Meter) : (s.setMeter m x).meterSettings n = s.meterSettings n := rfl
@[simp] theorem State.setMeter_totals (m : Meter) (x : MeterUnit) (k : Slot) : (s.setMeter m x).totals k = s.totals k := rfl
@[simp] theorem State.setMeter_running (m : Meter) (x : MeterUnit) : (s.setMeter m x).running = s.running := rfl
@[simp] theorem State.setMeter_watching (m : Meter) (x : MeterUnit) : (s.setMeter m x).watching = s.watching := rfl
@[simp] theorem State.setMeter_lossTimed (m : Meter) (x : MeterUnit) : (s.setMeter m x).lossTimed = s.lossTimed := rfl
@[simp] theorem State.setMeter_delivering (m : Meter) (x : MeterUnit) : (s.setMeter m x).delivering = s.delivering := rfl

/-! ### setCapture -/

@[simp] theorem State.setCapture_now (d : Domain) (x : Capture) : (s.setCapture d x).now = s.now := rfl
@[simp] theorem State.setCapture_pins (d : Domain) (x : Capture) : (s.setCapture d x).pins = s.pins := rfl
@[simp] theorem State.setCapture_points (d : Domain) (x : Capture) : (s.setCapture d x).points = s.points := rfl
@[simp] theorem State.setCapture_arbiter (d : Domain) (x : Capture) : (s.setCapture d x).arbiter = s.arbiter := rfl
@[simp] theorem State.setCapture_metrology (d : Domain) (x : Capture) : (s.setCapture d x).metrology = s.metrology := rfl
@[simp] theorem State.setCapture_meters (d : Domain) (x : Capture) : (s.setCapture d x).meters = s.meters := rfl
@[simp] theorem State.setCapture_prices (d : Domain) (x : Capture) : (s.setCapture d x).prices = s.prices := rfl
@[simp] theorem State.setCapture_heads (d : Domain) (x : Capture) : (s.setCapture d x).heads = s.heads := rfl
@[simp] theorem State.setCapture_card (d : Domain) (x : Capture) : (s.setCapture d x).card = s.card := rfl
@[simp] theorem State.setCapture_captures (d : Domain) (x : Capture) : (s.setCapture d x).captures = s.captures.set d x := rfl
@[simp] theorem State.setCapture_store (d : Domain) (x : Capture) : (s.setCapture d x).store = s.store := rfl
@[simp] theorem State.setCapture_power (d : Domain) (x : Capture) : (s.setCapture d x).power = s.power := rfl
@[simp] theorem State.setCapture_link (d : Domain) (x : Capture) : (s.setCapture d x).link = s.link := rfl
@[simp] theorem State.setCapture_pending (d : Domain) (x : Capture) : (s.setCapture d x).pending = s.pending := rfl
@[simp] theorem State.setCapture_point (d : Domain) (x : Capture) (q : Side) : (s.setCapture d x).point q = s.point q := rfl
@[simp] theorem State.setCapture_head (d : Domain) (x : Capture) (q : Side) : (s.setCapture d x).head q = s.head q := rfl
@[simp] theorem State.setCapture_meter (d : Domain) (x : Capture) (n : Meter) : (s.setCapture d x).meter n = s.meter n := rfl
@[simp] theorem State.setCapture_hose (d : Domain) (x : Capture) (k : Slot) : (s.setCapture d x).hose k = s.hose k := rfl
@[simp] theorem State.setCapture_meterSettings (d : Domain) (x : Capture) (n : Meter) : (s.setCapture d x).meterSettings n = s.meterSettings n := rfl
@[simp] theorem State.setCapture_totals (d : Domain) (x : Capture) (k : Slot) : (s.setCapture d x).totals k = s.totals k := rfl
@[simp] theorem State.setCapture_running (d : Domain) (x : Capture) : (s.setCapture d x).running = s.running := rfl
@[simp] theorem State.setCapture_watching (d : Domain) (x : Capture) : (s.setCapture d x).watching = s.watching := rfl
@[simp] theorem State.setCapture_lossTimed (d : Domain) (x : Capture) : (s.setCapture d x).lossTimed = s.lossTimed := rfl
@[simp] theorem State.setCapture_delivering (d : Domain) (x : Capture) : (s.setCapture d x).delivering = s.delivering := rfl

/-! ### setTotals -/

@[simp] theorem State.setTotals_now (h : Slot) (x : Totals) : (s.setTotals h x).now = s.now := rfl
@[simp] theorem State.setTotals_pins (h : Slot) (x : Totals) : (s.setTotals h x).pins = s.pins := rfl
@[simp] theorem State.setTotals_points (h : Slot) (x : Totals) : (s.setTotals h x).points = s.points := rfl
@[simp] theorem State.setTotals_arbiter (h : Slot) (x : Totals) : (s.setTotals h x).arbiter = s.arbiter := rfl
@[simp] theorem State.setTotals_metrology (h : Slot) (x : Totals) : (s.setTotals h x).metrology = s.metrology := rfl
@[simp] theorem State.setTotals_meters (h : Slot) (x : Totals) : (s.setTotals h x).meters = s.meters := rfl
@[simp] theorem State.setTotals_prices (h : Slot) (x : Totals) : (s.setTotals h x).prices = s.prices := rfl
@[simp] theorem State.setTotals_heads (h : Slot) (x : Totals) : (s.setTotals h x).heads = s.heads := rfl
@[simp] theorem State.setTotals_card (h : Slot) (x : Totals) : (s.setTotals h x).card = s.card := rfl
@[simp] theorem State.setTotals_captures (h : Slot) (x : Totals) : (s.setTotals h x).captures = s.captures := rfl
@[simp] theorem State.setTotals_store (h : Slot) (x : Totals) : (s.setTotals h x).store = { s.store with totals := s.store.totals.set h x } := rfl
@[simp] theorem State.setTotals_power (h : Slot) (x : Totals) : (s.setTotals h x).power = s.power := rfl
@[simp] theorem State.setTotals_link (h : Slot) (x : Totals) : (s.setTotals h x).link = s.link := rfl
@[simp] theorem State.setTotals_pending (h : Slot) (x : Totals) : (s.setTotals h x).pending = s.pending := rfl
@[simp] theorem State.setTotals_point (h : Slot) (x : Totals) (q : Side) : (s.setTotals h x).point q = s.point q := rfl
@[simp] theorem State.setTotals_head (h : Slot) (x : Totals) (q : Side) : (s.setTotals h x).head q = s.head q := rfl
@[simp] theorem State.setTotals_meter (h : Slot) (x : Totals) (n : Meter) : (s.setTotals h x).meter n = s.meter n := rfl
@[simp] theorem State.setTotals_capture (h : Slot) (x : Totals) (e : Domain) : (s.setTotals h x).capture e = s.capture e := rfl
@[simp] theorem State.setTotals_hose (h : Slot) (x : Totals) (k : Slot) : (s.setTotals h x).hose k = s.hose k := rfl
@[simp] theorem State.setTotals_meterSettings (h : Slot) (x : Totals) (n : Meter) : (s.setTotals h x).meterSettings n = s.meterSettings n := rfl
@[simp] theorem State.setTotals_running (h : Slot) (x : Totals) : (s.setTotals h x).running = s.running := rfl
@[simp] theorem State.setTotals_watching (h : Slot) (x : Totals) : (s.setTotals h x).watching = s.watching := rfl
@[simp] theorem State.setTotals_lossTimed (h : Slot) (x : Totals) : (s.setTotals h x).lossTimed = s.lossTimed := rfl
@[simp] theorem State.setTotals_delivering (h : Slot) (x : Totals) : (s.setTotals h x).delivering = s.delivering := rfl

/-! ### Members -/

@[simp] theorem Sides.get_set_self {α : Type} (x : Sides α) (p : Side) (v : α) : (x.set p v).get p = v := by
  cases p <;> rfl

theorem Sides.get_set_of_ne {α : Type} (x : Sides α) {p q : Side} (h : q ≠ p) (v : α) : (x.set p v).get q = x.get q := by
  cases p <;> cases q <;> first | rfl | exact absurd rfl h

@[simp] theorem Sides.set_set {α : Type} (x : Sides α) (p : Side) (v w : α) : (x.set p v).set p w = x.set p w := by
  cases p <;> rfl

@[simp] theorem Sides.set_get {α : Type} (x : Sides α) (p : Side) : x.set p (x.get p) = x := by
  cases p <;> rfl

theorem Sides.set_comm {α : Type} (x : Sides α) {p q : Side} (h : q ≠ p) (v w : α) :
    (x.set p v).set q w = (x.set q w).set p v := by
  cases p <;> cases q <;> first | rfl | exact absurd rfl h

@[simp] theorem Captures.get_set_self (c : Captures) (d : Domain) (x : Capture) : (c.set d x).get d = x := by
  cases d <;> rfl

theorem Captures.get_set_of_ne (c : Captures) {d e : Domain} (h : e ≠ d) (x : Capture) : (c.set d x).get e = c.get e := by
  cases d <;> cases e <;> first | rfl | exact absurd rfl h

@[simp] theorem State.point_setPoint_self (p : Side) (x : Point) : (s.setPoint p x).point p = x :=
  Sides.get_set_self s.points p x

theorem State.point_setPoint_of_ne {p q : Side} (h : q ≠ p) (x : Point) : (s.setPoint p x).point q = s.point q :=
  Sides.get_set_of_ne s.points h x

@[simp] theorem State.setPoint_setPoint (p : Side) (x y : Point) : (s.setPoint p x).setPoint p y = s.setPoint p y := by
  cases p <;> rfl

@[simp] theorem State.head_setHead_self (p : Side) (x : Head) : (s.setHead p x).head p = x :=
  Sides.get_set_self s.heads p x

theorem State.head_setHead_of_ne {p q : Side} (h : q ≠ p) (x : Head) : (s.setHead p x).head q = s.head q :=
  Sides.get_set_of_ne s.heads h x

@[simp] theorem State.capture_setCapture_self (d : Domain) (x : Capture) : (s.setCapture d x).capture d = x :=
  Captures.get_set_self s.captures d x

theorem State.capture_setCapture_of_ne {d e : Domain} (h : e ≠ d) (x : Capture) :
    (s.setCapture d x).capture e = s.capture e :=
  Captures.get_set_of_ne s.captures h x

@[simp] theorem State.meter_setMeter_self (m : Meter) (x : MeterUnit) : (s.setMeter m x).meter m = x := by
  show (s.meters.units.set m x).get m = x
  rw [Vector.get_eq_getElem]
  simp

theorem State.meter_setMeter_of_ne {m n : Meter} (h : n ≠ m) (x : MeterUnit) : (s.setMeter m x).meter n = s.meter n := by
  show (s.meters.units.set m x).get n = s.meters.units.get n
  rw [Vector.get_eq_getElem, Vector.get_eq_getElem]
  exact Vector.getElem_set_ne _ _ (fun e => h (Fin.ext e.symm))

@[simp] theorem State.totals_setTotals_self (h : Slot) (x : Totals) : (s.setTotals h x).totals h = x := by
  show (s.store.totals.set h x).get h = x
  rw [Vector.get_eq_getElem]
  simp

theorem State.totals_setTotals_of_ne {h k : Slot} (e : k ≠ h) (x : Totals) :
    (s.setTotals h x).totals k = s.totals k := by
  show (s.store.totals.set h x).get k = s.store.totals.get k
  rw [Vector.get_eq_getElem, Vector.get_eq_getElem]
  exact Vector.getElem_set_ne _ _ (fun i => e (Fin.ext i.symm))

end Sys2Proof.Machine
end

