-- ==== Sys2Proof/Laws/Frames.lean ====
section
/-! SUPPORT. How frames compose: `changesOnly`, `linkOutputs` and `touches` are reflexive and transitive and grow with the
parts named, and which frame each named update has. -/

namespace Sys2Proof.Machine

/-! ### agrees -/

theorem State.agrees_refl (s : State) (b : Block) : s.agrees s b := by cases b <;> exact rfl

theorem State.agrees_trans {s t u : State} {b : Block} (h : s.agrees t b) (k : t.agrees u b) : s.agrees u b := by
  cases b <;> exact Eq.trans k h

/-! ### changesOnly -/

theorem State.changesOnly_refl (s : State) (parts : List Block) : s.changesOnly s parts := fun b _ => s.agrees_refl b

theorem State.changesOnly_trans {s t u : State} {parts : List Block} (h : s.changesOnly t parts)
    (k : t.changesOnly u parts) : s.changesOnly u parts :=
  fun b hb => State.agrees_trans (h b hb) (k b hb)

theorem State.changesOnly_mono {s t : State} {parts more : List Block} (h : s.changesOnly t parts)
    (sub : ∀ b, b ∈ parts → b ∈ more) : s.changesOnly t more :=
  fun b hb => h b fun hp => hb (sub b hp)

/-- What a frame says, part by part. -/
theorem State.changesOnly_agrees {s t : State} {parts : List Block} (h : s.changesOnly t parts) (b : Block)
    (hb : b ∉ parts) : s.agrees t b := h b hb

theorem State.withNow_changesOnly (s : State) (x : Nat) : s.changesOnly (s.withNow x) [.now] := by
  intro b hb; cases b <;> first | exact rfl | exact absurd (by simp) hb

theorem State.withPins_changesOnly (s : State) (x : Pins) : s.changesOnly (s.withPins x) [.pins] := by
  intro b hb; cases b <;> first | exact rfl | exact absurd (by simp) hb

theorem State.withPoints_changesOnly (s : State) (x : Sides Point) : s.changesOnly (s.withPoints x) [.points] := by
  intro b hb; cases b <;> first | exact rfl | exact absurd (by simp) hb

theorem State.withArbiter_changesOnly (s : State) (x : Arbiter) : s.changesOnly (s.withArbiter x) [.arbiter] := by
  intro b hb; cases b <;> first | exact rfl | exact absurd (by simp) hb

theorem State.withMetrology_changesOnly (s : State) (x : Metrology) :
    s.changesOnly (s.withMetrology x) [.metrology] := by
  intro b hb; cases b <;> first | exact rfl | exact absurd (by simp) hb

theorem State.withMeters_changesOnly (s : State) (x : Meters) : s.changesOnly (s.withMeters x) [.meters] := by
  intro b hb; cases b <;> first | exact rfl | exact absurd (by simp) hb

theorem State.withPrices_changesOnly (s : State) (x : PriceTable) : s.changesOnly (s.withPrices x) [.prices] := by
  intro b hb; cases b <;> first | exact rfl | exact absurd (by simp) hb

theorem State.withHeads_changesOnly (s : State) (x : Sides Head) : s.changesOnly (s.withHeads x) [.heads] := by
  intro b hb; cases b <;> first | exact rfl | exact absurd (by simp) hb

theorem State.withCard_changesOnly (s : State) (x : CardChannel) : s.changesOnly (s.withCard x) [.card] := by
  intro b hb; cases b <;> first | exact rfl | exact absurd (by simp) hb

theorem State.withCaptures_changesOnly (s : State) (x : Captures) : s.changesOnly (s.withCaptures x) [.captures] := by
  intro b hb; cases b <;> first | exact rfl | exact absurd (by simp) hb

theorem State.withStore_changesOnly (s : State) (x : Store) : s.changesOnly (s.withStore x) [.store] := by
  intro b hb; cases b <;> first | exact rfl | exact absurd (by simp) hb

theorem State.withPower_changesOnly (s : State) (x : PowerController) : s.changesOnly (s.withPower x) [.power] := by
  intro b hb; cases b <;> first | exact rfl | exact absurd (by simp) hb

theorem State.withLink_changesOnly (s : State) (x : LinkPort) : s.changesOnly (s.withLink x) [.link] := by
  intro b hb; cases b <;> first | exact rfl | exact absurd (by simp) hb

theorem State.withPending_changesOnly (s : State) (x : List Instr) : s.changesOnly (s.withPending x) [.pending] := by
  intro b hb; cases b <;> first | exact rfl | exact absurd (by simp) hb

/-! ### linkOutputs -/

theorem State.linkOutputs_refl (s : State) : s.linkOutputs s := ⟨rfl, fun _ h _ => h, fun _ h => h, fun _ h => h⟩

theorem State.linkOutputs_of_link_eq {s t : State} (h : t.link = s.link) : s.linkOutputs t := by
  refine ⟨?_, ?_, ?_, ?_⟩
  · rw [h]
  · intro w hw _; rw [h]; exact hw
  · intro f hf; simpa only [State.replied, h] using hf
  · intro n hn; simpa only [State.noted, h] using hn

theorem State.linkOutputs_trans {s t u : State} (h : s.linkOutputs t) (k : t.linkOutputs u) : s.linkOutputs u := by
  obtain ⟨h1, h2, h3, h4⟩ := h
  obtain ⟨k1, k2, k3, k4⟩ := k
  refine ⟨?_, fun w hw hn => k2 w (h2 w hw hn) hn, fun f hf => k3 f (h3 f hf), fun n hn => k4 n (h4 n hn)⟩
  rw [h1] at k1
  exact k1

/-! ### touches -/

theorem State.touches_refl (s : State) (parts : List Block) : s.touches s parts :=
  ⟨s.changesOnly_refl _, s.linkOutputs_refl⟩

theorem State.touches_trans {s t u : State} {parts : List Block} (h : s.touches t parts) (k : t.touches u parts) :
    s.touches u parts :=
  ⟨State.changesOnly_trans h.1 k.1, State.linkOutputs_trans h.2 k.2⟩

theorem State.touches_mono {s t : State} {parts more : List Block} (h : s.touches t parts)
    (sub : ∀ b, b ∈ parts → b ∈ more) : s.touches t more := by
  refine ⟨State.changesOnly_mono h.1 fun b hb => ?_, h.2⟩
  rcases List.mem_cons.mp hb with e | e
  · exact e ▸ List.mem_cons_self
  · exact List.mem_cons_of_mem _ (sub b e)

/-- Two frames with different parts, in the parts of both. -/
theorem State.touches_trans_of {s t u : State} {parts more both : List Block} (h : s.touches t parts)
    (k : t.touches u more) (sub : ∀ b, b ∈ parts → b ∈ both) (sub' : ∀ b, b ∈ more → b ∈ both) : s.touches u both :=
  State.touches_trans (State.touches_mono h sub) (State.touches_mono k sub')

/-- A change of named parts that leaves the link port alone. -/
theorem State.touches_of_changesOnly {s t : State} {parts : List Block} (h : s.changesOnly t parts)
    (hl : Block.link ∉ parts) : s.touches t parts :=
  ⟨State.changesOnly_mono h fun _ hb => List.mem_cons_of_mem _ hb, State.linkOutputs_of_link_eq (h .link hl)⟩

/-- A change of the outbound side of the link alone. -/
theorem State.touches_of_linkOutputs {s t : State} (h : s.changesOnly t [.link]) (k : s.linkOutputs t) : s.touches t [] :=
  ⟨h, k⟩

theorem State.touches_replied {s t : State} {parts : List Block} (h : s.touches t parts) {f : Message}
    (k : s.replied f) : t.replied f := h.2.2.2.1 f k

theorem State.touches_noted {s t : State} {parts : List Block} (h : s.touches t parts) {n : Subject}
    (k : s.noted n) : t.noted n := h.2.2.2.2 n k

theorem State.setPoint_touches (s : State) (p : Side) (x : Point) : s.touches (s.setPoint p x) [.points] :=
  State.touches_of_changesOnly (s.withPoints_changesOnly _) (by simp)

theorem State.setHead_touches (s : State) (p : Side) (x : Head) : s.touches (s.setHead p x) [.heads] :=
  State.touches_of_changesOnly (s.withHeads_changesOnly _) (by simp)

theorem State.setMeter_touches (s : State) (m : Meter) (x : MeterUnit) : s.touches (s.setMeter m x) [.meters] :=
  State.touches_of_changesOnly (s.withMeters_changesOnly _) (by simp)

theorem State.setCapture_touches (s : State) (d : Domain) (x : Capture) : s.touches (s.setCapture d x) [.captures] :=
  State.touches_of_changesOnly (s.withCaptures_changesOnly _) (by simp)

theorem State.setTotals_touches (s : State) (h : Slot) (x : Totals) : s.touches (s.setTotals h x) [.store] :=
  State.touches_of_changesOnly (s.withStore_changesOnly _) (by simp)

end Sys2Proof.Machine
end

