-- ==== Sys2Proof/Laws/Ops.lean ====
section
/-! SUPPORT. What each shared operation of Machine/Ops.lean can do, said once: time, the outbound side of the link, a fault's
arrival at its capture, the write queue, the taking of a command, and the codes of the records. -/

namespace Sys2Proof.Machine

/-! ### Time -/

@[simp] theorem State.advanceTo_now (s : State) (t : Nat) : (s.advanceTo t).now = max s.now t := by
  unfold State.advanceTo; split <;> rfl

/-- Time changes `now` and the clock of the power controller, nothing else. -/
theorem State.advanceTo_changesOnly (s : State) (t : Nat) : s.changesOnly (s.advanceTo t) [.now, .power] := by
  unfold State.advanceTo
  split <;> intro b hb <;> cases b <;> first | exact rfl | exact absurd (by simp) hb

/-- Of the power controller time changes the three items of the clock. -/
theorem State.advanceTo_power (s : State) (t : Nat) :
    (s.advanceTo t).power = s.power ∨ (s.advanceTo t).power = s.power.runClock (t - s.now) := by
  unfold State.advanceTo; split
  · exact .inl rfl
  · exact .inr rfl

theorem State.advanceTo_running (s : State) (t : Nat) : (s.advanceTo t).running = s.running := by
  unfold State.advanceTo; split <;> rfl

/-! ### Choosing the next frame -/

theorem bestNotice_mem : ∀ {l : List QueuedNotice} {n : QueuedNotice}, bestNotice l = some n → n ∈ l
  | [], _, h => by simp [bestNotice] at h
  | m :: rest, n, h => by
    unfold bestNotice at h
    split at h
    · exact Option.some.inj h ▸ List.mem_cons_self
    · rename_i k hk
      split at h
      · exact Option.some.inj h ▸ List.mem_cons_of_mem _ (bestNotice_mem hk)
      · exact Option.some.inj h ▸ List.mem_cons_self

theorem bestNotice_eq_none : ∀ {l : List QueuedNotice}, bestNotice l = none → l = []
  | [], _ => rfl
  | m :: rest, h => by
    unfold bestNotice at h
    split at h
    · cases h
    · split at h <;> cases h

/-- R187: no queued notice ranks before the chosen one. -/
theorem bestNotice_rank : ∀ {l : List QueuedNotice} {n : QueuedNotice}, bestNotice l = some n →
    ∀ k ∈ l, n.subject.rank ≤ k.subject.rank
  | [], _, h => by simp [bestNotice] at h
  | m :: rest, n, h => by
    intro k hk
    unfold bestNotice at h
    split at h
    · rename_i hb
      rw [bestNotice_eq_none hb] at hk
      have hm := Option.some.inj h
      have hk' : k = m := by simpa using hk
      rw [hk', hm]
    · rename_i x hx
      have ih := bestNotice_rank hx
      rcases List.mem_cons.mp hk with e | e
      · split at h <;> (have hm := Option.some.inj h; subst hm; subst e; omega)
      · have := ih k e
        split at h <;> (have hm := Option.some.inj h; subst hm; omega)

/-- R187: the arbiter's choice on a line without a frame changes the outbound side of the link alone, and loses nothing. -/
theorem State.chooseFrame_touches (s : State) (h : s.link.line = .idle ∨ s.link.line = .choosing) :
    s.touches s.chooseFrame [] := by
  unfold State.chooseFrame
  split
  · rename_i f rest hf
    refine State.touches_of_linkOutputs (s.withLink_changesOnly _) ⟨rfl, fun w hw _ => hw, ?_, ?_⟩
    · intro g hg
      rcases hg with hg | hg
      · rw [hf] at hg
        rcases List.mem_cons.mp hg with e | e
        · exact .inr (by rw [e]; rfl)
        · exact .inl e
      · rcases h with h | h <;> rw [h] at hg <;> cases hg
    · intro n hn
      simp only [State.noted, LinkPort.subjects, State.withLink_link] at hn ⊢
      rcases h with h | h <;> simpa [h] using hn
  · rename_i hf
    split
    · rename_i m hm
      refine State.touches_of_linkOutputs (s.withLink_changesOnly _) ⟨rfl, fun w hw _ => hw, ?_, ?_⟩
      · intro g hg
        rcases hg with hg | hg
        · rw [hf] at hg; cases hg
        · rcases h with h | h <;> rw [h] at hg <;> cases hg
      · intro n hn
        simp only [State.noted, LinkPort.subjects, State.withLink_link] at hn ⊢
        have hq : n ∈ s.link.notices.map QueuedNotice.subject := by rcases h with h | h <;> simpa [h] using hn
        by_cases e : n = m.subject
        · exact List.mem_append_right _ (by rw [e]; exact List.mem_singleton_self _)
        · refine List.mem_append_left _ ?_
          obtain ⟨k, hk, hkn⟩ := List.mem_map.mp hq
          exact List.mem_map.mpr ⟨k, List.mem_filter.mpr ⟨hk, by simpa [hkn] using e⟩, hkn⟩
    · refine State.touches_of_linkOutputs (s.withLink_changesOnly _) ⟨rfl, fun w hw _ => hw, ?_, ?_⟩
      · intro g hg
        rcases hg with hg | hg
        · exact .inl hg
        · rcases h with h | h <;> rw [h] at hg <;> cases hg
      · intro n hn
        simp only [State.noted, LinkPort.subjects, State.withLink_link] at hn ⊢
        rcases h with h | h <;> simpa [h] using hn

theorem State.startLine_touches (s : State) : s.touches s.startLine [] := by
  unfold State.startLine
  split
  · rename_i h; exact s.chooseFrame_touches (.inl h)
  · exact s.touches_refl _

@[simp] theorem State.chooseFrame_running (s : State) : s.chooseFrame.running = s.running := by
  unfold State.chooseFrame; split
  · rfl
  · split <;> rfl

@[simp] theorem State.startLine_running (s : State) : s.startLine.running = s.running := by
  unfold State.startLine; split <;> simp

/-! ### Notices and replies -/

theorem raiseIn_subjects (n : Subject) (l : List QueuedNotice) :
    (raiseIn n l).map QueuedNotice.subject =
      if n ∈ l.map QueuedNotice.subject then l.map QueuedNotice.subject else l.map QueuedNotice.subject ++ [n] := by
  unfold raiseIn
  by_cases h : n ∈ l.map QueuedNotice.subject
  · have ha : (l.any fun m => decide (m.subject = n)) = true := by
      obtain ⟨k, hk, e⟩ := List.mem_map.mp h
      exact List.any_eq_true.mpr ⟨k, hk, by simpa using e⟩
    rw [if_pos ha, if_pos h, List.map_map]
    refine List.map_congr_left fun m _ => ?_
    show (if m.subject = n then { m with superseded := true } else m).subject = m.subject
    split <;> rfl
  · have ha : ¬ (l.any fun m => decide (m.subject = n)) = true := by
      intro hc
      obtain ⟨k, hk, e⟩ := List.any_eq_true.mp hc
      exact h (List.mem_map.mpr ⟨k, hk, by simpa using e⟩)
    rw [if_neg ha, if_neg h, List.map_append]
    rfl

/-- R186: the queue of a raise joins the subjects and loses none. -/
theorem State.withNotices_touches (s : State) (n : Subject) :
    s.touches (s.withLink { s.link with notices := raiseIn n s.link.notices }) [] := by
  refine State.touches_of_linkOutputs (s.withLink_changesOnly _) ⟨rfl, fun w hw _ => hw, fun f hf => hf, ?_⟩
  intro k hk
  simp only [State.noted, LinkPort.subjects, State.withLink_link] at hk ⊢
  rcases List.mem_append.mp hk with e | e
  · refine List.mem_append_left _ ?_
    rw [raiseIn_subjects]; split
    · exact e
    · exact List.mem_append_left _ e
  · exact List.mem_append_right _ e

theorem State.withNotices_noted (s : State) (n : Subject) :
    (s.withLink { s.link with notices := raiseIn n s.link.notices }).noted n := by
  simp only [State.noted, LinkPort.subjects, State.withLink_link]
  refine List.mem_append_left _ ?_
  rw [raiseIn_subjects]; split
  · assumption
  · exact List.mem_append_right _ (List.mem_singleton_self _)

/-- R186: a raise changes the outbound side of the link alone, and loses nothing that waits there. -/
theorem State.raise_touches (s : State) (n : Subject) : s.touches (s.raise n) [] := by
  unfold State.raise
  split
  · split
    · rename_i m f again carries hl
      split
      · rename_i e
        refine State.touches_of_linkOutputs (s.withLink_changesOnly _) ⟨rfl, fun w hw _ => hw, ?_, ?_⟩
        · intro g hg
          rcases hg with hg | hg
          · exact .inl hg
          · rw [hl] at hg; cases hg
        · intro k hk
          simp only [State.noted, LinkPort.subjects, State.withLink_link, hl] at hk ⊢
          exact hk
      · exact s.withNotices_touches n
    · exact State.touches_trans (s.withNotices_touches n) (State.startLine_touches _)
  · exact s.touches_refl _

/-- R186: after a raise the subject's slot is occupied, while the link runs. -/
theorem State.raise_noted (s : State) (n : Subject) (h : s.running = true) : (s.raise n).noted n := by
  unfold State.raise
  rw [if_pos h]
  split
  · rename_i m f again carries hl
    split
    · rename_i e
      simp only [State.noted, LinkPort.subjects, State.withLink_link]
      exact List.mem_append_right _ (by rw [e]; exact List.mem_singleton_self _)
    · exact s.withNotices_noted n
  · exact State.touches_noted (State.startLine_touches _) (s.withNotices_noted n)

@[simp] theorem State.raise_running (s : State) (n : Subject) : (s.raise n).running = s.running := by
  unfold State.raise
  split
  · split
    · split <;> rfl
    · simp
  · rfl

/-- R190: while the link does not run, a raise does nothing. -/
theorem State.raise_of_not_running (s : State) (n : Subject) (h : s.running = false) : s.raise n = s := by
  unfold State.raise; simp [h]

theorem State.finish_touches (s : State) (f : Message) : s.touches (s.finish f) [] := by
  have h : s.touches (s.withLink { s.link with finished := s.link.finished ++ [f] }) [] :=
    State.touches_of_linkOutputs (s.withLink_changesOnly _) ⟨rfl, fun w hw _ => hw,
      fun g hg => hg.elim (fun e => .inl (List.mem_append_left _ e)) .inr, fun n hn => hn⟩
  exact State.touches_trans h (State.startLine_touches _)

theorem State.finish_replied (s : State) (f : Message) : (s.finish f).replied f := by
  unfold State.finish
  exact State.touches_replied (State.startLine_touches _) (.inl (List.mem_append_right _ (List.mem_singleton_self _)))

/-! ### Fault captures -/

theorem Capture.arrive_token (c : Capture) (f : FaultRecord) : (c.arrive f).token = c.token + 1 := by
  unfold Capture.arrive
  split
  · rfl
  · split <;> rfl

theorem Capture.arrive_isSome (c : Capture) (f : FaultRecord) : (c.arrive f).fault.isSome = true := by
  unfold Capture.arrive
  split
  · rfl
  · rename_i old h
    split
    · rfl
    · simp [h]

theorem State.arrive_touches (s : State) (d : Domain) (f : FaultRecord) : s.touches (s.arrive d f) [.captures] :=
  State.touches_trans (s.setCapture_touches d _) (State.touches_mono (State.raise_touches _ _) (by simp))

theorem State.arrive_captures (s : State) (d : Domain) (f : FaultRecord) :
    (s.arrive d f).captures = s.captures.set d ((s.capture d).arrive f) :=
  (State.raise_touches (s.setCapture d ((s.capture d).arrive f)) (.fault d)).1 .captures (by simp)

@[simp] theorem State.arrive_running (s : State) (d : Domain) (f : FaultRecord) :
    (s.arrive d f).running = s.running := by
  unfold State.arrive; simp

/-! ### Retained store -/

/-- R145: a record whose marker is clear is blank. -/
@[simp] theorem Cell.judge_blank {α : Type} (bytes : α → List Byte) : (Cell.blank : Cell α).judge bytes = .blank := rfl

/-- R145: a record whose code is that of its content is valid. -/
@[simp] theorem Cell.judge_agreeing {α : Type} (bytes : α → List Byte) (x : α) :
    (⟨true, some x, crc16 (bytes x)⟩ : Cell α).judge bytes = .valid x := by simp [Cell.judge]

/-- R145: a record with the complement of its content's code is damaged. -/
@[simp] theorem Cell.judge_torn {α : Type} (bytes : α → List Byte) (x : α) :
    (⟨true, some x, ~~~crc16 (bytes x)⟩ : Cell α).judge bytes = .damaged := by simp [Cell.judge]

/-- A write of one slot's totals leaves what the store finds of another's. -/
theorem Records.put_findTotals_of_ne (r : Records) (code : BitVec 16) {h k : Slot} (x : Totals) (hk : k ≠ h) :
    (r.put code (.totals h x)).findTotals k = r.findTotals k := by
  simp only [Records.put, Records.findTotals]
  rw [Vector.get_eq_getElem, Vector.get_eq_getElem, Vector.getElem_set_ne]
  exact fun e => hk (Fin.ext e.symm)

theorem State.beginWrite_changesOnly (s : State) (c : RecordContent) : s.changesOnly (s.beginWrite c) [.store] :=
  s.withStore_changesOnly _

theorem State.beginNext_changesOnly (s : State) : s.changesOnly s.beginNext [.store] := by
  unfold State.beginNext
  split
  · exact State.changesOnly_trans (s.withStore_changesOnly _) (State.beginWrite_changesOnly _ _)
  · exact s.changesOnly_refl _

theorem State.queueRecord_changesOnly (s : State) (r : RecordId) : s.changesOnly (s.queueRecord r) [.store] := by
  unfold State.queueRecord
  split
  · exact s.changesOnly_refl _
  · exact State.changesOnly_trans (s.withStore_changesOnly _) (State.beginNext_changesOnly _)

theorem State.queueRecord_touches (s : State) (r : RecordId) : s.touches (s.queueRecord r) [.store] :=
  State.touches_of_changesOnly (s.queueRecord_changesOnly r) (by simp)

/-- R146: beginning and queuing write nothing but the records, the queue and the write in flight. -/
theorem State.beginNext_store (s : State) :
    s.beginNext.store.totals = s.store.totals ∧ s.beginNext.store.snapshots = s.store.snapshots ∧
    s.beginNext.store.dirty = s.store.dirty := by
  unfold State.beginNext
  split <;> exact ⟨rfl, rfl, rfl⟩

theorem State.queueRecord_store (s : State) (r : RecordId) :
    (s.queueRecord r).store.totals = s.store.totals ∧ (s.queueRecord r).store.snapshots = s.store.snapshots ∧
    (s.queueRecord r).store.dirty = s.store.dirty := by
  unfold State.queueRecord
  split
  · exact ⟨rfl, rfl, rfl⟩
  · exact State.beginNext_store _

/-- R146: after its queuing a record waits in the queue, or its write has begun with the owner's working content. -/
theorem State.queueRecord_cases (s : State) (r : RecordId) :
    r ∈ (s.queueRecord r).store.queue ∨
    (s.store.inFlight = none ∧ s.store.queue = [] ∧
      (s.queueRecord r).store.inFlight = some ⟨s.content r, s.now + r.writeTime, false⟩) := by
  unfold State.queueRecord
  split
  · exact .inl (by assumption)
  · unfold State.beginNext
    cases hi : s.store.inFlight with
    | some w =>
      refine .inl ?_
      simp only [State.withStore_store, hi]
      exact List.mem_append_right _ (List.mem_singleton_self _)
    | none =>
      cases hq : s.store.queue with
      | nil =>
        refine .inr ⟨rfl, rfl, ?_⟩
        simp only [State.withStore_store, hi, List.nil_append]
        cases r <;> rfl
      | cons x rest =>
        refine .inl ?_
        simp only [State.withStore_store, hi, List.cons_append]
        exact List.mem_append_right _ (List.mem_singleton_self _)

theorem State.handover_changesOnly (s : State) (p : Side) (x : Snapshot) : s.changesOnly (s.handover p x) [.store] :=
  s.withStore_changesOnly _

theorem State.settle_touches (s : State) (r : SaleRecord) : s.touches (s.settle r) [.store] := by
  unfold State.settle
  split
  · exact State.touches_trans (s.setTotals_touches _ _) (State.queueRecord_touches _ _)
  · exact s.touches_refl _

/-! ### Commands -/

/-- R184: while the link runs and a slot is free, a command row is taken. -/
theorem State.command_of_takes (s : State) (tag : Byte) (c : Command) (o : Owner) (h : s.takes) :
    s.command tag c o = s.take (Command.kind c) tag o := by
  unfold State.command
  rw [if_pos h.1, if_pos h.2]

/-- R190: while the link does not run, a command row is not received. -/
theorem State.command_of_not_running (s : State) (tag : Byte) (c : Command) (o : Owner) (h : s.running = false) :
    s.command tag c o = s := by
  unfold State.command; simp [h]

/-- R184: the slot of a command just judged becomes free of it; replies that wait for writes stay. -/
theorem LinkPort.mem_unjudge {l : LinkPort} {w : WaitingReply} : w ∈ l.unjudge.waiting ↔ w ∈ l.waiting ∧ w.waits ≠ .owner := by
  simp [LinkPort.unjudge]

/-- The state an owner judges in: the command's slot is occupied. -/
def State.judged (s : State) (kind tag : Byte) : State :=
  s.withLink { s.link with waiting := s.link.waiting ++ [⟨kind, tag, .owner⟩] }

theorem State.take_eq (s : State) (kind tag : Byte) (o : Owner) :
    s.take kind tag o = (o (s.judged kind tag)).1.answer kind tag (o (s.judged kind tag)).2 := rfl

theorem State.judged_touches (s : State) (kind tag : Byte) : s.touches (s.judged kind tag) [] :=
  State.touches_of_linkOutputs (s.withLink_changesOnly _)
    ⟨rfl, fun _ hw _ => List.mem_append_left _ hw, fun _ hf => hf, fun _ hn => hn⟩

theorem State.unjudge_touches (s : State) : s.touches (s.withLink s.link.unjudge) [] :=
  State.touches_of_linkOutputs (s.withLink_changesOnly _)
    ⟨rfl, fun _ hw hn => LinkPort.mem_unjudge.mpr ⟨hw, hn⟩, fun _ hf => hf, fun _ hn => hn⟩

/-- R184, R147: the answer to a command changes the outbound side of the link alone. -/
theorem State.answer_touches (s : State) (kind tag : Byte) (x : Response) : s.touches (s.answer kind tag x) [] := by
  unfold State.answer
  split
  · refine State.touches_of_linkOutputs (s.withLink_changesOnly _)
      ⟨rfl, fun w hw hn => List.mem_append_left _ (LinkPort.mem_unjudge.mpr ⟨hw, hn⟩), fun _ hf => hf, fun _ hn => hn⟩
  · exact State.touches_trans s.unjudge_touches (State.finish_touches _ _)

/-- What an owner may touch, the taken command touches. -/
theorem State.take_touches (s : State) (kind tag : Byte) (o : Owner) {parts : List Block}
    (h : (s.judged kind tag).touches (o (s.judged kind tag)).1 parts) : s.touches (s.take kind tag o) parts := by
  rw [State.take_eq]
  exact State.touches_trans
    (State.touches_trans (State.touches_mono (s.judged_touches kind tag) (by simp)) h)
    (State.touches_mono (State.answer_touches _ _ _ _) (by simp))

/-- R184: a DONE, REFUSED or STALE answer is FINISHED, or on the line. -/
theorem State.take_replied (s : State) (kind tag : Byte) (o : Owner) (x : Response)
    (h : (o (s.judged kind tag)).2 = x) (hx : ∀ r adjusted result, x ≠ .onWrite r adjusted result) :
    (s.take kind tag o).replied (replyFrame kind tag x) := by
  rw [State.take_eq, h]
  unfold State.answer
  split
  · exact absurd rfl (hx _ _ _)
  · exact State.finish_replied _ _

/-- R147: an answer that waits for a write occupies a slot with its payload. -/
theorem State.take_awaits (s : State) (kind tag : Byte) (o : Owner) {r : RecordId} {adjusted : Bool} {result : List Byte}
    (h : (o (s.judged kind tag)).2 = .onWrite r adjusted result) :
    (s.take kind tag o).awaits kind tag r (donePayload adjusted result) := by
  rw [State.take_eq, h]
  exact ⟨_, List.mem_append_right _ (List.mem_singleton_self _)⟩

/-! ### Codes of the records -/

/-- R194: the fault codes, counted on within their domain, are those the model sends. -/
theorem faultCodeByte_eq (c : FaultCode) : faultCodeByte c = c.code := by cases c <;> decide

/-- R194: the codes of an end reason, FF when absent. -/
theorem endReasonByte_eq (x : Option EndReason) : endReasonByte x = optByte (x.map EndReason.code) := by
  rcases x with _ | r
  · rfl
  · cases r <;> decide

/-- R194: origin kind and value. -/
theorem originPair_eq (x : Option Origin) : originPair x = originBytes x := by
  rcases x with _ | (_ | _ | p | _)
  · rfl
  · rfl
  · rfl
  · cases p <;> rfl
  · rfl

end Sys2Proof.Machine
end

