-- ==== Sys2Proof/Laws/Points.lean ====
section
/-! SUPPORT. Which parts the operations of a point and its sale can touch (Machine/Points.lean, PowerOps.lean, Prices.lean,
Sales.lean, and the nozzle list in Meters.lean), each said once, so that a frame of a row follows from the frames of what it calls. -/

namespace Sys2Proof.Machine

/-- Of a point operation: a new point, then its notice. -/
theorem State.setPoint_notePoint_touches (s : State) (p : Side) (x : Point) :
    s.touches ((s.setPoint p x).notePoint p) [.points] :=
  State.touches_trans (s.setPoint_touches p x) (State.touches_mono (State.raise_touches _ _) (by simp))

theorem State.notePoint_touches (s : State) (p : Side) : s.touches (s.notePoint p) [] := s.raise_touches _

/-! ### Voids and the arbiter -/

theorem State.void_touches (s : State) (p : Side) (cause : VoidCause) : s.touches (s.void p cause) [.points] := by
  unfold State.void
  dsimp only
  split
  · exact s.touches_refl _
  · exact s.setPoint_notePoint_touches p _

theorem State.checkFuelling_touches (s : State) (p : Side) : s.touches (s.checkFuelling p) [.points] := by
  unfold State.checkFuelling
  dsimp only
  split
  · split
    · exact s.setPoint_notePoint_touches p _
    · exact s.touches_refl _
  · exact s.touches_refl _

theorem State.grant_touches (s : State) (p : Side) (rest : List Side) :
    s.touches (s.grant p rest) [.points, .arbiter] := by
  have ha : s.touches (s.withArbiter { s.arbiter with requests := rest, lastGrant := some s.now }) [.points, .arbiter] :=
    State.touches_mono (State.touches_of_changesOnly (s.withArbiter_changesOnly _) (by simp)) (by simp)
  unfold State.grant
  dsimp only
  split
  · exact State.touches_trans ha (State.touches_trans_of (State.setPoint_touches _ _ _) (State.checkFuelling_touches _ _)
      (by simp) (by simp))
  · exact State.touches_trans ha (State.touches_mono (State.setPoint_touches _ _ _) (by simp))

theorem State.checkArbiter_touches (s : State) : s.touches s.checkArbiter [.points, .arbiter] := by
  unfold State.checkArbiter
  split
  · exact s.touches_refl _
  · split
    · exact s.grant_touches _ _
    · exact s.touches_refl _

theorem State.withRequests_touches (s : State) (l : List Side) :
    s.touches (s.withArbiter { s.arbiter with requests := l }) [.points, .arbiter] :=
  State.touches_mono (State.touches_of_changesOnly (s.withArbiter_changesOnly _) (by simp)) (by simp)

theorem State.requestStart_touches (s : State) (p : Side) : s.touches (s.requestStart p) [.points, .arbiter] := by
  unfold State.requestStart
  dsimp only
  split
  · exact State.touches_trans (s.withRequests_touches _) (State.checkArbiter_touches _)
  · exact s.withRequests_touches _

theorem State.withdraw_touches (s : State) (p : Side) : s.touches (s.withdraw p) [.points, .arbiter] := by
  unfold State.withdraw
  dsimp only
  split
  · exact State.touches_trans (s.withRequests_touches _) (State.checkArbiter_touches _)
  · exact s.withRequests_touches _

/-! ### Suspension, card loss and leaving service -/

theorem State.suspendPoint_touches (s : State) (p : Side) : s.touches (s.suspendPoint p) [.points] := by
  unfold State.suspendPoint
  split
  · exact s.setPoint_notePoint_touches p _
  · exact s.setPoint_notePoint_touches p _
  · exact s.touches_refl _

theorem State.cardLostAt_touches (s : State) (p : Side) : s.touches (s.cardLostAt p) [.points] := by
  unfold State.cardLostAt
  dsimp only
  split
  · split
    · exact s.void_touches p _
    · exact s.touches_refl _
  · split
    · exact s.suspendPoint_touches p
    · exact s.touches_refl _
  · split
    · exact s.suspendPoint_touches p
    · exact s.touches_refl _
  · exact s.touches_refl _

theorem State.cardLost_touches (s : State) : s.touches s.cardLost [.points] :=
  State.touches_trans (s.cardLostAt_touches _) (State.cardLostAt_touches _ _)

theorem State.leaveService_touches (s : State) (p : Side) (cause : VoidCause) (next : PointState) :
    s.touches (s.leaveService p cause next) [.points] := s.setPoint_notePoint_touches p _

theorem State.closeForStandby_touches (s : State) (p : Side) : s.touches (s.closeForStandby p) [.points] := by
  unfold State.closeForStandby
  split
  · exact s.touches_refl _
  · exact s.leaveService_touches p _ _

theorem State.closeForClosing_touches (s : State) (p : Side) : s.touches (s.closeForClosing p) [.points] := by
  unfold State.closeForClosing
  dsimp only
  split
  · split
    · exact s.touches_refl _
    · exact s.setPoint_notePoint_touches p _
  · split
    · exact s.touches_refl _
    · exact s.leaveService_touches p _ _

/-! ### Card channel and power -/

theorem State.withCard_touches (s : State) (x : CardChannel) : s.touches (s.withCard x) [.card] :=
  State.touches_of_changesOnly (s.withCard_changesOnly _) (by simp)

theorem State.withPower_touches (s : State) (x : PowerController) : s.touches (s.withPower x) [.power] :=
  State.touches_of_changesOnly (s.withPower_changesOnly _) (by simp)

theorem State.withPrices_touches (s : State) (x : PriceTable) : s.touches (s.withPrices x) [.prices] :=
  State.touches_of_changesOnly (s.withPrices_changesOnly _) (by simp)

theorem State.signalLoss_touches (s : State) (left : CardState) : s.touches (s.signalLoss left) [.points] := by
  unfold State.signalLoss
  split
  · exact s.cardLost_touches
  · exact s.touches_refl _

theorem State.stopCard_touches (s : State) : s.touches s.stopCard [.points, .card] := by
  unfold State.stopCard
  split
  · exact State.touches_mono (s.withCard_touches _) (by simp)
  · exact State.touches_trans
      (State.touches_trans_of (s.withCard_touches _) (State.raise_touches _ _) (by simp) (by simp))
      (State.touches_mono (State.signalLoss_touches _ _) (by simp))

theorem State.contain_touches (s : State) : s.touches s.contain [.points, .card] := by
  unfold State.contain
  split
  · exact State.touches_mono (s.withCard_touches _) (by simp)
  · exact State.touches_trans
      (State.touches_trans_of (s.withCard_touches _) (State.raise_touches _ _) (by simp) (by simp))
      (State.touches_mono (State.signalLoss_touches _ _) (by simp))

theorem State.tamperEvent_touches (s : State) : s.touches s.tamperEvent [.points, .card, .captures] := by
  unfold State.tamperEvent
  exact State.touches_trans
    (State.touches_trans_of (State.arrive_touches _ _ _) (State.contain_touches _) (by simp) (by simp))
    (State.touches_trans_of (State.withCard_touches _ _) (State.raise_touches _ _) (by simp) (by simp))

theorem State.headsOff_touches (s : State) : s.touches s.headsOff [.heads] :=
  State.touches_of_changesOnly (s.withHeads_changesOnly _) (by simp)

theorem State.enterStandby_touches (s : State) :
    s.touches s.enterStandby [.points, .heads, .card, .power, .store] := by
  unfold State.enterStandby
  exact State.touches_trans
    (State.touches_trans
      (State.touches_trans_of (s.withPower_touches _)
        (State.touches_trans (State.queueRecord_touches _ _) (State.touches_mono (State.raise_touches _ _) (by simp)))
        (by simp) (by simp))
      (State.touches_mono (State.touches_trans (State.closeForStandby_touches _ _) (State.closeForStandby_touches _ _))
        (by simp)))
    (State.touches_trans_of (State.headsOff_touches _) (State.stopCard_touches _) (by simp) (by simp))

theorem State.checkClosing_touches (s : State) :
    s.touches s.checkClosing [.points, .heads, .card, .power, .store] := by
  unfold State.checkClosing
  split
  · exact s.enterStandby_touches
  · exact s.touches_refl _

/-- R169: outside CLOSING a sale end has nothing to test. -/
theorem State.checkClosing_of_not_closing (s : State) (h : s.power.state ≠ .closing) : s.checkClosing = s := by
  unfold State.checkClosing; simp [h]

/-! ### Prices -/

theorem State.priceOutcome_touches (s : State) (o : PriceOutcome) : s.touches (s.priceOutcome o) [.prices] :=
  State.touches_trans_of (s.withPrices_touches _) (State.raise_touches _ _) (by simp) (by simp)

theorem State.voidForPrice_touches (s : State) (affected : BitVec 4) (p : Side) :
    s.touches (s.voidForPrice affected p) [.points] := by
  unfold State.voidForPrice
  split
  · exact s.void_touches p _
  · exact s.touches_refl _

theorem State.applyPrices_touches (s : State) (entries : PriceSet) (affected : BitVec 4) :
    s.touches (s.applyPrices entries affected) [.points, .prices, .store] := by
  unfold State.applyPrices
  exact State.touches_trans
    (State.touches_trans
      (State.touches_trans_of (s.withPrices_touches _)
        (State.touches_trans (State.voidForPrice_touches _ _ _) (State.voidForPrice_touches _ _ _)) (by simp) (by simp))
      (State.touches_mono (State.queueRecord_touches _ _) (by simp)))
    (State.touches_trans_of (State.withPrices_touches _ _) (State.priceOutcome_touches _ _) (by simp) (by simp))

theorem State.testPending_touches (s : State) : s.touches s.testPending [.points, .prices, .store] := by
  unfold State.testPending
  split
  · split
    · exact s.applyPrices_touches _ _
    · exact s.touches_refl _
  · exact s.touches_refl _

/-- R85: a sale end without a pending set has nothing to test. -/
theorem State.testPending_of_none (s : State) (h : s.prices.pending = none) : s.testPending = s := by
  unfold State.testPending; rw [h]

/-! ### Start and end of a sale -/

theorem State.takeMeter_touches (s : State) (p : Side) (m : Meter) : s.touches (s.takeMeter p m) [.meters] :=
  State.touches_trans_of (s.setMeter_touches m _) (State.raise_touches _ _) (by simp) (by simp)

theorem State.enterStarting_touches (s : State) (p : Side) (e : Entry) (h : Slot) (z : Hose) (price : Nat) :
    s.touches (s.enterStarting p e h z price) [.points, .arbiter, .meters, .heads] := by
  unfold State.enterStarting
  exact State.touches_trans
    (State.touches_trans
      (State.touches_trans_of (s.setPoint_touches p _) (State.takeMeter_touches _ p _) (by simp) (by simp))
      (State.touches_trans_of (State.setHead_touches _ p _) (State.requestStart_touches _ p) (by simp) (by simp)))
    (State.touches_mono (State.notePoint_touches _ p) (by simp))

theorem State.reportStart_touches (s : State) (p : Side) (r : Reports) : s.touches (s.reportStart p r) [.points] := by
  unfold State.reportStart
  dsimp only
  split
  · exact s.touches_refl _
  · exact s.setPoint_notePoint_touches p _

theorem State.evaluateStart_touches (s : State) (p : Side) :
    s.touches (s.evaluateStart p) [.points, .arbiter, .meters, .heads] := by
  unfold State.evaluateStart
  dsimp only
  split
  · split
    · split
      · split
        · exact s.enterStarting_touches p _ _ _ _
        · exact State.touches_mono (s.reportStart_touches p _) (by simp)
      · exact State.touches_mono (s.reportStart_touches p _) (by simp)
    · exact State.touches_mono (s.reportStart_touches p _) (by simp)
  · exact State.touches_mono (s.reportStart_touches p _) (by simp)
  · exact s.touches_refl _

/-- R9: only a point in AUTHORIZED evaluates its start condition. -/
theorem State.evaluateStart_of_ne (s : State) (p : Side) (h : (s.point p).state ≠ .authorized) :
    s.evaluateStart p = s := by
  unfold State.evaluateStart
  dsimp only
  split
  · rename_i e _ _; exact absurd e h
  · rename_i e _ _; exact absurd e h
  · rfl

/-- R9: without a lifted hose nothing starts, and at most "card not open" clears. -/
theorem State.evaluateStart_of_nil (s : State) (p : Side) (e : Entry) (hs : (s.point p).state = .authorized)
    (he : (s.point p).entry = some e) (h : (s.point p).nozzles = []) :
    s.evaluateStart p = s.reportStart p ((s.point p).reports.unlifted (s.linkHolds e.link)) := by
  have hl : (s.point p).lifted = none := by simp [Point.lifted, h]
  unfold State.evaluateStart
  simp only [hs, he, hl]

theorem State.releaseMeter_touches (s : State) (p : Side) : s.touches (s.releaseMeter p) [.meters] := by
  unfold State.releaseMeter
  split
  · exact State.touches_trans_of (s.setMeter_touches _ _) (State.raise_touches _ _) (by simp) (by simp)
  · exact s.touches_refl _

theorem State.showLastSale_touches (s : State) (p : Side) (r : SaleRecord) : s.touches (s.showLastSale p r) [.heads] :=
  s.setHead_touches p _

theorem State.stackSale_touches (s : State) (p : Side) (r : SaleRecord) :
    s.touches (s.stackSale p r) [.points, .store] := by
  unfold State.stackSale
  exact State.touches_trans
    (State.touches_trans_of (s.setPoint_touches p _)
      (State.touches_of_changesOnly (State.handover_changesOnly _ p _) (by simp)) (by simp) (by simp))
    (State.touches_trans_of (State.queueRecord_touches _ _) (State.settle_touches _ _) (by simp) (by simp))

theorem State.leaveSale_touches (s : State) (p : Side) : s.touches (s.leaveSale p) [.points] :=
  s.setPoint_notePoint_touches p _

theorem State.reportSale_touches (s : State) (p : Side) (why : Option EndReason) :
    s.touches (s.reportSale p why) [.points] :=
  State.touches_trans_of (s.setPoint_touches p _) (State.raise_touches _ _) (by simp) (by simp)

/-- R24: the end of a sale touches its point, meter and head, the records it is settled into, and what waits for it: a pending
price set and the entry to STANDBY. -/
theorem State.endSale_touches (s : State) (p : Side) (discard : Bool) :
    s.touches (s.endSale p discard) [.points, .prices, .meters, .heads, .card, .power, .store] := by
  unfold State.endSale
  split
  · exact s.touches_refl _
  · rename_i r _
    have h1 := State.touches_trans_of (s.releaseMeter_touches p) (State.showLastSale_touches _ p r.close)
      (both := [.points, .prices, .meters, .heads, .card, .power, .store]) (by simp) (by simp)
    have h2 : ((s.releaseMeter p).showLastSale p r.close).touches
        (if r.close.displayed = 0 ∨ discard = true then (s.releaseMeter p).showLastSale p r.close
          else ((s.releaseMeter p).showLastSale p r.close).stackSale p r.close)
        [.points, .prices, .meters, .heads, .card, .power, .store] := by
      split
      · exact State.touches_refl _ _
      · exact State.touches_mono (State.stackSale_touches _ p _) (by simp)
    exact State.touches_trans (State.touches_trans (State.touches_trans h1 h2)
        (State.touches_trans_of (State.reportSale_touches _ p _) (State.leaveSale_touches _ p) (by simp) (by simp)))
      (State.touches_trans_of (State.testPending_touches _) (State.checkClosing_touches _) (by simp) (by simp))

theorem State.recordEnd_touches (s : State) (p : Side) (why : EndReason) : s.touches (s.recordEnd p why) [.points] :=
  s.setPoint_touches p _

theorem State.enterStopping_touches (s : State) (p : Side) (why : EndReason) :
    s.touches (s.enterStopping p why) [.points] :=
  State.touches_trans (s.recordEnd_touches p why) (State.setPoint_notePoint_touches _ p _)

theorem State.endInStarting_touches (s : State) (p : Side) (why : EndReason) (discard : Bool) :
    s.touches (s.endInStarting p why discard) [.points, .arbiter, .prices, .meters, .heads, .card, .power, .store] := by
  unfold State.endInStarting
  exact State.touches_trans
    (State.touches_trans_of (s.withdraw_touches p)
      (State.touches_trans (State.setPoint_touches _ p _) (State.recordEnd_touches _ p why)) (by simp) (by simp))
    (State.touches_mono (State.endSale_touches _ p discard) (by simp))

/-- R12, R21: what a stop cause can touch. -/
theorem State.stopCause_touches (s : State) (p : Side) (why : EndReason) :
    s.touches (s.stopCause p why) [.points, .arbiter, .prices, .meters, .heads, .card, .power, .store] := by
  unfold State.stopCause
  split
  · exact s.endInStarting_touches p why false
  · exact State.touches_mono (s.enterStopping_touches p why) (by simp)
  · exact State.touches_mono (s.enterStopping_touches p why) (by simp)
  · exact State.touches_mono (s.enterStopping_touches p why) (by simp)
  · exact s.touches_refl _

/-- R27: what a HALT can touch. -/
theorem State.haltPoint_touches (s : State) (p : Side) (discard : Bool) :
    s.touches (s.haltPoint p discard) [.points, .arbiter, .prices, .meters, .heads, .card, .power, .store] := by
  unfold State.haltPoint
  split
  · exact s.endInStarting_touches p .fault discard
  · exact State.touches_mono (s.enterStopping_touches p .fault) (by simp)
  · exact State.touches_mono (s.enterStopping_touches p .fault) (by simp)
  · exact State.touches_mono (s.enterStopping_touches p .fault) (by simp)
  · exact State.touches_mono (s.leaveService_touches p _ _) (by simp)
  · exact State.touches_mono (s.leaveService_touches p _ _) (by simp)
  · exact State.touches_mono (s.leaveService_touches p _ _) (by simp)
  · exact s.touches_refl _
  · exact s.touches_refl _
  · exact s.touches_refl _

/-! ### Nozzle list -/

/-- R5: a slot that leaves the list changes its point and nothing else. -/
theorem State.dropSlot_touches (s : State) (h : Slot) : s.touches (s.dropSlot h) [.points] :=
  s.setPoint_notePoint_touches _ _

/-- R54: in CALLING the last present slot leaves the list as any other does, and the state stays. -/
theorem State.delist_last (s : State) (h : Slot) (hl : s.hasHose (Slot.side h) = false)
    (hc : (s.point (Slot.side h)).state = .calling) (hm : h ∈ (s.point (Slot.side h)).nozzles) :
    s.delist h = s.dropSlot h := by
  simp [State.delist, hl, hc, hm]

/-- R4, R54: in every other case a slot made absent leaves the list as if its nozzle had been hung. -/
theorem State.delist_eq_leaveList (s : State) (h : Slot)
    (hx : s.hasHose (Slot.side h) = true ∨ (s.point (Slot.side h)).state ≠ .calling) : s.delist h = s.leaveList h := by
  rcases hx with hx | hx <;> simp [State.delist, hx]

end Sys2Proof.Machine
end

