-- ==== Sys2Proof/Laws/Blocks.lean ====
section
/-! SUPPORT. Which parts the operations of the card receiver, the meter unit, the display unit, the wake sequence and the fault
commands can touch, each said once. -/

namespace Sys2Proof.Machine

/-! ### Card receiver -/

theorem State.cardFault_touches (s : State) (code : FaultCode) (sev : Severity) :
    s.touches (s.cardFault code sev) [.captures] := s.arrive_touches _ _

theorem State.supplyFault_touches (s : State) (code : FaultCode) (sev : Severity) (origin : Option Origin) :
    s.touches (s.supplyFault code sev origin) [.captures] := s.arrive_touches _ _

theorem State.pointFault_touches (s : State) (p : Side) (code : FaultCode) (sev : Severity) (origin : Option Origin)
    (sale : Option (BitVec 16)) : s.touches (s.pointFault p code sev origin sale) [.captures] := s.arrive_touches _ _

theorem State.setReception_touches (s : State) (r : Reception) : s.touches (s.setReception r) [.card] :=
  s.withCard_touches _

theorem State.placeFrame_touches (s : State) (content : List Byte) (status : FrameStatus) :
    s.touches (s.placeFrame content status) [.card] := s.withCard_touches _

theorem State.noteClose_touches (s : State) (content : List Byte) : s.touches (s.noteClose content) [] := by
  unfold State.noteClose
  split
  · exact s.touches_refl _
  · exact s.raise_touches _

theorem State.beginFrame_touches (s : State) : s.touches s.beginFrame [.card, .captures] := by
  unfold State.beginFrame
  split
  · exact State.touches_mono (s.setReception_touches _) (by simp)
  · exact State.touches_trans_of (s.setReception_touches _) (State.cardFault_touches _ _ _) (by simp) (by simp)

/-- R127: a bad frame can contain the channel, which the points learn. -/
theorem State.checkRun_touches (s : State) : s.touches s.checkRun [.points, .card, .captures] := by
  unfold State.checkRun
  split
  · exact State.touches_trans_of (State.cardFault_touches _ _ _) (State.contain_touches _) (by simp) (by simp)
  · exact s.touches_refl _

theorem State.countBad_touches (s : State) (content : List Byte) :
    s.touches (s.countBad content) [.points, .card, .captures] :=
  State.touches_trans
    (State.touches_trans_of (s.withCard_touches _) (State.noteClose_touches _ content) (by simp) (by simp))
    (State.checkRun_touches _)

theorem State.cardOpened_touches (s : State) (p : Side) :
    s.touches (s.cardOpened p) [.points, .arbiter, .meters, .heads] := by
  unfold State.cardOpened
  split
  · exact s.evaluateStart_touches p
  · exact State.touches_mono (s.checkFuelling_touches p) (by simp)
  · exact s.touches_refl _

theorem State.enterOpen_touches (s : State) : s.touches s.enterOpen [.points, .arbiter, .meters, .heads, .card] := by
  unfold State.enterOpen
  exact State.touches_trans
    (State.touches_trans_of (s.withCard_touches _) (State.raise_touches _ _) (by simp) (by simp))
    (State.touches_mono (State.touches_trans (State.cardOpened_touches _ _) (State.cardOpened_touches _ _)) (by simp))

theorem State.goodClose_touches (s : State) (content : List Byte) :
    s.touches (s.goodClose content) [.points, .arbiter, .meters, .heads, .card] := by
  unfold State.goodClose
  split
  · exact State.touches_trans (State.touches_mono (s.noteClose_touches content) (by simp)) (State.enterOpen_touches _)
  · exact State.touches_trans_of (s.withCard_touches _) (State.noteClose_touches _ content) (by simp) (by simp)
  · exact State.touches_mono (s.noteClose_touches content) (by simp)

theorem State.checkClose_touches (s : State) (content : List Byte) :
    s.touches (s.checkClose content) [.points, .card, .captures] := by
  unfold State.checkClose
  split
  · split
    · exact State.touches_trans (State.touches_mono (s.cardFault_touches _ _) (by simp)) (State.countBad_touches _ content)
    · exact s.countBad_touches content
  · exact State.touches_mono (s.noteClose_touches content) (by simp)

theorem State.closeFrame_touches (s : State) (content : List Byte) (ok : Bool) :
    s.touches (s.closeFrame content ok) [.points, .arbiter, .meters, .heads, .card, .captures] := by
  unfold State.closeFrame
  split
  · exact State.touches_trans
      (State.touches_trans_of (s.setReception_touches _) (State.placeFrame_touches _ _ _) (by simp) (by simp))
      (State.touches_mono (State.goodClose_touches _ content) (by simp))
  · exact State.touches_trans
      (State.touches_trans_of (s.setReception_touches _) (State.placeFrame_touches _ _ _) (by simp) (by simp))
      (State.touches_mono (State.checkClose_touches _ content) (by simp))

/-! ### Meter unit -/

theorem State.updateSale_touches (s : State) (p : Side) (f : SaleRecord → SaleRecord) :
    s.touches (s.updateSale p f) [.points] := s.setPoint_touches p _

theorem State.saleOverrange_touches (s : State) (m : Meter) (p : Side) :
    s.touches (s.saleOverrange m p) [.points, .captures] :=
  State.touches_trans_of (s.updateSale_touches p _) (State.pointFault_touches _ p _ _ _ _) (by simp) (by simp)

theorem State.saturated_touches (s : State) (p : Side) : s.touches (s.saturated p) [.captures] :=
  s.pointFault_touches p _ _ _ _

theorem State.saleDisplay_touches (s : State) (p : Side) (r : SaleRecord) :
    s.touches (s.saleDisplay p r) [.points, .captures] := by
  unfold State.saleDisplay
  dsimp only
  split
  · exact State.touches_trans_of (s.updateSale_touches p _) (State.saturated_touches _ p) (by simp) (by simp)
  · exact State.touches_mono (s.updateSale_touches p _) (by simp)

theorem State.saleMoney_touches (s : State) (p : Side) (r : SaleRecord) :
    s.touches (s.saleMoney p r) [.points, .captures] := by
  unfold State.saleMoney
  dsimp only
  split
  · exact State.touches_trans_of (s.updateSale_touches p _) (State.saturated_touches _ p) (by simp) (by simp)
  · exact State.touches_mono (s.updateSale_touches p _) (by simp)

theorem State.slowdownReached_touches (s : State) (p : Side) : s.touches (s.slowdownReached p) [.points] := by
  unfold State.slowdownReached
  dsimp only
  split
  · exact s.setPoint_notePoint_touches p _
  · exact s.touches_refl _

theorem State.targetReached_touches (s : State) (p : Side) (why : EndReason) :
    s.touches (s.targetReached p why) [.points, .arbiter, .prices, .meters, .heads, .card, .power, .store] := by
  unfold State.targetReached
  split
  · exact s.stopCause_touches p why
  · exact s.stopCause_touches p why
  · exact s.stopCause_touches p why
  · exact s.touches_refl _

theorem State.checkThresholds_touches (s : State) (p : Side) :
    s.touches (s.checkThresholds p) [.points, .arbiter, .prices, .meters, .heads, .card, .power, .store] := by
  unfold State.checkThresholds
  split
  · split
    · exact s.targetReached_touches p _
    · split
      · exact State.touches_mono (s.slowdownReached_touches p) (by simp)
      · exact s.touches_refl _
  · exact s.touches_refl _

theorem State.restartSettle_touches (s : State) (p : Side) (n : Int) : s.touches (s.restartSettle p n) [.points] := by
  unfold State.restartSettle
  dsimp only
  split
  · split
    · exact s.touches_refl _
    · exact s.setPoint_touches p _
  · exact s.touches_refl _

/-- R22: a window without flow leaves the settle interval. -/
theorem State.restartSettle_zero (s : State) (p : Side) : s.restartSettle p 0 = s := by
  unfold State.restartSettle
  dsimp only
  split
  · exact if_pos rfl
  · rfl

/-! ### Display unit -/

theorem State.headFault_touches (s : State) (p : Side) (code : FaultCode) (sev : Severity) :
    s.touches (s.headFault p code sev) [.captures] := s.pointFault_touches p _ _ _ _

theorem State.setMismatches_touches (s : State) (p : Side) (n : Nat) : s.touches (s.setMismatches p n) [.heads] :=
  s.setHead_touches p _

theorem State.mismatch_touches (s : State) (p : Side) : s.touches (s.mismatch p)
    [.points, .arbiter, .prices, .meters, .heads, .card, .captures, .power, .store] := by
  unfold State.mismatch
  dsimp only
  split
  · exact s.touches_refl _
  · split
    · exact State.touches_trans
        (State.touches_trans_of (s.setMismatches_touches p _) (State.headFault_touches _ p _ _) (by simp) (by simp))
        (State.touches_trans_of (State.headFault_touches _ p _ _) (State.haltPoint_touches _ p _) (by simp) (by simp))
    · exact State.touches_trans_of (s.setMismatches_touches p _) (State.headFault_touches _ p _ _) (by simp) (by simp)

/-! ### Wake sequence -/

theorem State.headOn_touches (s : State) (p : Side) : s.touches (s.headOn p) [.heads] := by
  unfold State.headOn
  dsimp only
  split
  · exact s.touches_refl _
  · exact s.setHead_touches p _

theorem State.heaterOn_touches (s : State) (p : Side) : s.touches (s.heaterOn p) [.heads] := s.setHead_touches p _

theorem State.enterRun_touches (s : State) : s.touches s.enterRun [.heads, .power, .store] := by
  unfold State.enterRun
  exact State.touches_trans
    (State.touches_trans
      (State.touches_trans_of (s.withPower_touches _)
        (State.touches_trans (State.headOn_touches _ _) (State.headOn_touches _ _)) (by simp) (by simp))
      (State.touches_mono (State.touches_trans (State.heaterOn_touches _ _) (State.heaterOn_touches _ _)) (by simp)))
    (State.touches_trans_of (State.queueRecord_touches _ _) (State.raise_touches _ _) (by simp) (by simp))

theorem State.toService_touches (s : State) (p : Side) : s.touches (s.toService p) [.points] :=
  s.setPoint_notePoint_touches p _

theorem State.openStep_touches (s : State) (p : Side) : s.touches (s.openStep p) [.points] := by
  unfold State.openStep
  split
  · exact s.toService_touches p
  · exact s.touches_refl _

theorem State.completeRestart_touches (s : State) : s.touches s.completeRestart [.card] :=
  State.touches_trans_of (s.withCard_touches _) (State.raise_touches _ _) (by simp) (by simp)

theorem State.acceptRestart_touches (s : State) : s.touches s.acceptRestart [.card] := by
  unfold State.acceptRestart
  split
  · exact s.completeRestart_touches
  · exact s.withCard_touches _

theorem State.tryRestart_touches (s : State) : s.touches s.tryRestart.1 [.points, .card, .captures] := by
  unfold State.tryRestart
  split
  · exact s.tamperEvent_touches
  · split
    · exact s.touches_refl _
    · split
      · exact s.touches_refl _
      · exact State.touches_mono (s.acceptRestart_touches) (by simp)

theorem State.readerStep_touches (s : State) : s.touches s.readerStep [.points, .card, .captures] := by
  unfold State.readerStep
  split
  · exact s.tryRestart_touches
  · split
    · exact s.tamperEvent_touches
    · exact s.touches_refl _
  · exact s.touches_refl _
  · exact s.touches_refl _

/-- R174: what the action of a step can touch. -/
theorem State.takeAction_touches (s : State) (a : WakeAction) :
    s.touches (s.takeAction a) [.points, .heads, .card, .captures, .power] := by
  cases a with
  | heater p => exact State.touches_mono (s.heaterOn_touches p) (by simp)
  | head p => exact State.touches_mono (s.headOn_touches p) (by simp)
  | reader => exact State.touches_mono s.readerStep_touches (by simp)
  | motorSupply => exact State.touches_mono (s.withPower_touches _) (by simp)
  | openPoint p => exact State.touches_mono (s.openStep_touches p) (by simp)

theorem State.startWait_touches (s : State) (w : WakeStep) : s.touches (s.startWait w) [.power] := s.withPower_touches _

theorem State.beginStep_touches (s : State) (n : Nat) (w : WakeStep) :
    s.touches (s.beginStep n w) [.points, .heads, .card, .captures, .power] := by
  unfold State.beginStep
  dsimp only
  refine State.touches_trans ?_ (State.touches_mono (State.raise_touches _ _) (by simp))
  split
  · exact State.touches_trans
      (State.touches_trans (State.touches_mono (s.withPower_touches _) (by simp)) (State.takeAction_touches _ _))
      (State.touches_mono (State.startWait_touches _ _) (by simp))
  · exact State.touches_trans (State.touches_mono (s.withPower_touches _) (by simp)) (State.takeAction_touches _ _)

theorem State.endWait_touches (s : State) : s.touches s.endWait [.power] :=
  State.touches_trans_of (s.withPower_touches _) (State.raise_touches _ _) (by simp) (by simp)

theorem State.markCold_touches (s : State) (p : Side) : s.touches (s.markCold p) [.heads] := by
  unfold State.markCold
  dsimp only
  split
  · exact s.touches_refl _
  · exact State.touches_trans_of (s.setHead_touches p _) (State.raise_touches _ _) (by simp) (by simp)

theorem State.countAbort_touches (s : State) (n : Nat) : s.touches (s.countAbort n) [.power, .captures] := by
  unfold State.countAbort
  dsimp only
  split
  · exact State.touches_trans_of (s.withPower_touches _) (State.supplyFault_touches _ _ _ _) (by simp) (by simp)
  · exact State.touches_mono (s.withPower_touches _) (by simp)

theorem State.abortWake_touches (s : State) (n : Nat) (w : WakeStep) :
    s.touches (s.abortWake n w) [.points, .heads, .card, .captures, .power, .store] := by
  unfold State.abortWake
  dsimp only
  split
  · exact State.touches_trans (State.touches_mono (s.supplyFault_touches _ _ _) (by simp))
      (State.touches_trans_of (State.countAbort_touches _ _) (State.enterStandby_touches _) (by simp) (by simp))
  · exact State.touches_trans_of (s.supplyFault_touches _ _ _) (State.enterStandby_touches _) (by simp) (by simp)

theorem State.degradeWake_touches (s : State) (n : Nat) (w : WakeStep) :
    s.touches (s.degradeWake n w) [.heads, .captures] := by
  unfold State.degradeWake
  dsimp only
  split
  · exact State.touches_trans_of (s.supplyFault_touches _ _ _) (State.markCold_touches _ _) (by simp) (by simp)
  · exact State.touches_mono (s.supplyFault_touches _ _ _) (by simp)

/-- R174: the steps of the wake sequence, however far they run in one event, touch no more than this. -/
theorem State.runSteps_touches (steps : List WakeStep) : ∀ (s : State) (n : Nat),
    s.touches (s.runSteps n steps) [.points, .heads, .card, .captures, .power, .store] := by
  induction steps with
  | nil => intro s n; exact State.touches_mono s.enterRun_touches (by simp)
  | cons w rest ih =>
    intro s n
    have hb : s.touches (s.beginStep n w) [.points, .heads, .card, .captures, .power, .store] :=
      State.touches_mono (s.beginStep_touches n w) (by simp)
    have he : s.touches (s.beginStep n w).endWait [.points, .heads, .card, .captures, .power, .store] :=
      State.touches_trans hb (State.touches_mono (State.endWait_touches _) (by simp))
    unfold State.runSteps
    dsimp only
    split
    · exact hb
    · exact State.touches_trans he (ih _ _)
    · split
      · exact State.touches_trans (State.touches_trans he (State.touches_mono (State.supplyFault_touches _ _ _ _) (by simp)))
          (ih _ _)
      · exact State.touches_trans (State.touches_trans he (State.touches_mono (State.degradeWake_touches _ _ _) (by simp)))
          (ih _ _)
      · exact State.touches_trans he (State.touches_mono (State.abortWake_touches _ _ _) (by simp))

theorem State.nextSteps_touches (s : State) :
    s.touches s.nextSteps [.points, .heads, .card, .captures, .power, .store] := State.runSteps_touches _ _ _

theorem State.completeWait_touches (s : State) :
    s.touches s.completeWait [.points, .heads, .card, .captures, .power, .store] :=
  State.touches_trans (State.touches_mono s.endWait_touches (by simp)) (State.nextSteps_touches _)

/-! ### Faults -/

theorem State.emptyCapture_touches (s : State) (d : Domain) : s.touches (s.emptyCapture d) [.captures, .power] := by
  unfold State.emptyCapture
  dsimp only
  split
  · exact State.touches_trans (State.touches_trans_of (s.setCapture_touches d _) (State.raise_touches _ _) (by simp) (by simp))
      (State.touches_mono (State.withPower_touches _ _) (by simp))
  · exact State.touches_trans_of (s.setCapture_touches d _) (State.raise_touches _ _) (by simp) (by simp)

/-! ### Schedule -/

/-- R172: once a schedule is in force, the clock reaches a second of the day only by running into it. -/
theorem PowerController.untilSecond_reschedule (x : PowerController) (wake sleep : Option Nat) (onLift : Bool) (t : Nat) :
    (x.reschedule wake sleep onLift).untilSecond t =
      (if x.clock < t then t - x.clock else t + Config.day - x.clock) * Config.second - x.clockMs := by
  rw [PowerController.untilSecond, if_neg (by simp [PowerController.reschedule])]
  rfl

end Sys2Proof.Machine
end

