-- ==== Sys2Proof/Laws/PerInstr.lean ====
section
/-! SUPPORT. The families of statements made row by row, one lemma for each constructor of Instr. -/

namespace Sys2Proof.Laws

open Sys2Proof.Machine

/-- A wake step takes six bytes (R193). -/
theorem steps_length (l : List RawStep) : (l.flatMap fun x =>
    x.action :: x.wait :: x.head :: bytes16 x.time ++ [x.outcome]).length = 6 * l.length := by
  induction l with
  | nil => rfl
  | cons x rest ih => rw [List.flatMap_cons, List.length_append, ih, List.length_cons]; simp [bytes16]; omega

/-- A table point takes six bytes (R193). -/
theorem points_length (l : List RawTablePoint) : (l.flatMap fun x => bytes16 x.q ++ bytes32 x.k).length = 6 * l.length := by
  induction l with
  | nil => rfl
  | cons x rest ih => rw [List.flatMap_cons, List.length_append, ih, List.length_cons]; simp [bytes16, bytes32]; omega

/-- R193: the codes of the commands. -/
theorem kind_range (c : Command) : 1 ≤ (Command.kind c).toNat ∧ (Command.kind c).toNat ≤ 0x28 := by
  cases c <;> simp [Command.kind]

/-- R181: the payload of a well-formed command fits a frame. -/
theorem payload_fits (c : Command) (h : c.wf = true) : (Command.payload c).length ≤ Config.contentLimit := by
  cases c with
  | setMeterTable m points =>
    have := of_decide_eq_true h
    simp only [Command.payload, List.length_cons, points_length]; omega
  | setWakeSequence steps =>
    have := of_decide_eq_true h
    simp only [Command.payload, List.length_cons, steps_length]; omega
  | cardSend content => exact of_decide_eq_true h
  | _ => simp [Command.payload, bytes16, bytes32, bytes64, Config.contentLimit]

/-- R181, R193: a command row carries a command with a code from 01 to 28 hex; the row is well-formed exactly when its command
is, and the payload of a well-formed command fits a frame. -/
def FitsItsFrame.Statement (i : Instr) : Prop :=
  ∀ tag c level, Instr.asCommand i = some (tag, c, level) →
    1 ≤ (Command.kind c).toNat ∧ (Command.kind c).toNat ≤ 0x28 ∧ i.wf = c.wf ∧
    (c.wf = true → (Command.payload c).length ≤ Config.contentLimit)

theorem FitsItsFrame.identify (tag : Byte) : FitsItsFrame.Statement (.identify tag) := by
  intro t c level h; cases h; exact ⟨(kind_range _).1, (kind_range _).2, rfl, payload_fits _⟩

theorem FitsItsFrame.readLink (tag : Byte) : FitsItsFrame.Statement (.readLink tag) := by
  intro t c level h; cases h; exact ⟨(kind_range _).1, (kind_range _).2, rfl, payload_fits _⟩

theorem FitsItsFrame.setLinkTimeout (tag : Byte) (seconds : Byte) : FitsItsFrame.Statement (.setLinkTimeout tag seconds) := by
  intro t c level h; cases h; exact ⟨(kind_range _).1, (kind_range _).2, rfl, payload_fits _⟩

theorem FitsItsFrame.authorize (tag : Byte) (args : AuthorizeArgs) : FitsItsFrame.Statement (.authorize tag args) := by
  intro t c level h; cases h; exact ⟨(kind_range _).1, (kind_range _).2, rfl, payload_fits _⟩

theorem FitsItsFrame.cancel (tag : Byte) (point : Byte) : FitsItsFrame.Statement (.cancel tag point) := by
  intro t c level h; cases h; exact ⟨(kind_range _).1, (kind_range _).2, rfl, payload_fits _⟩

theorem FitsItsFrame.stop (tag : Byte) (point : Byte) : FitsItsFrame.Statement (.stop tag point) := by
  intro t c level h; cases h; exact ⟨(kind_range _).1, (kind_range _).2, rfl, payload_fits _⟩

theorem FitsItsFrame.suspend (tag : Byte) (point : Byte) : FitsItsFrame.Statement (.suspend tag point) := by
  intro t c level h; cases h; exact ⟨(kind_range _).1, (kind_range _).2, rfl, payload_fits _⟩

theorem FitsItsFrame.resume (tag : Byte) (point unlink : Byte) : FitsItsFrame.Statement (.resume tag point unlink) := by
  intro t c level h; cases h; exact ⟨(kind_range _).1, (kind_range _).2, rfl, payload_fits _⟩

theorem FitsItsFrame.openPoint (tag : Byte) (point : Byte) : FitsItsFrame.Statement (.openPoint tag point) := by
  intro t c level h; cases h; exact ⟨(kind_range _).1, (kind_range _).2, rfl, payload_fits _⟩

theorem FitsItsFrame.closePoint (tag : Byte) (point : Byte) : FitsItsFrame.Statement (.closePoint tag point) := by
  intro t c level h; cases h; exact ⟨(kind_range _).1, (kind_range _).2, rfl, payload_fits _⟩

theorem FitsItsFrame.restartPoint (tag : Byte) (point : Byte) : FitsItsFrame.Statement (.restartPoint tag point) := by
  intro t c level h; cases h; exact ⟨(kind_range _).1, (kind_range _).2, rfl, payload_fits _⟩

theorem FitsItsFrame.clearSale (tag : Byte) (point : Byte) (number : BitVec 16) : FitsItsFrame.Statement (.clearSale tag point number) := by
  intro t c level h; cases h; exact ⟨(kind_range _).1, (kind_range _).2, rfl, payload_fits _⟩

theorem FitsItsFrame.readSale (tag : Byte) (point : Byte) (selector : BitVec 16) : FitsItsFrame.Statement (.readSale tag point selector) := by
  intro t c level h; cases h; exact ⟨(kind_range _).1, (kind_range _).2, rfl, payload_fits _⟩

theorem FitsItsFrame.setPointOptions (tag : Byte) (args : PointOptionsArgs) : FitsItsFrame.Statement (.setPointOptions tag args) := by
  intro t c level h; cases h; exact ⟨(kind_range _).1, (kind_range _).2, rfl, payload_fits _⟩

theorem FitsItsFrame.setHose (tag : Byte) (args : HoseArgs) (switchClosed : Bool) : FitsItsFrame.Statement (.setHose tag args switchClosed) := by
  intro t c level h; cases h; exact ⟨(kind_range _).1, (kind_range _).2, rfl, payload_fits _⟩

theorem FitsItsFrame.setMeterTable (tag : Byte) (meter : Byte) (points : List RawTablePoint) (switchClosed : Bool) : FitsItsFrame.Statement (.setMeterTable tag meter points switchClosed) := by
  intro t c level h; cases h; exact ⟨(kind_range _).1, (kind_range _).2, rfl, payload_fits _⟩

theorem FitsItsFrame.setMeterLimits (tag : Byte) (meter phaseLimit flowLimit : Byte) (switchClosed : Bool) : FitsItsFrame.Statement (.setMeterLimits tag meter phaseLimit flowLimit switchClosed) := by
  intro t c level h; cases h; exact ⟨(kind_range _).1, (kind_range _).2, rfl, payload_fits _⟩

theorem FitsItsFrame.readMetrology (tag : Byte) (kind value : Byte) (switchClosed : Bool) : FitsItsFrame.Statement (.readMetrology tag kind value switchClosed) := by
  intro t c level h; cases h; exact ⟨(kind_range _).1, (kind_range _).2, rfl, payload_fits _⟩

theorem FitsItsFrame.priceChange (tag : Byte) (args : PriceArgs) : FitsItsFrame.Statement (.priceChange tag args) := by
  intro t c level h; cases h; exact ⟨(kind_range _).1, (kind_range _).2, rfl, payload_fits _⟩

theorem FitsItsFrame.cancelPriceChange (tag : Byte) : FitsItsFrame.Statement (.cancelPriceChange tag) := by
  intro t c level h; cases h; exact ⟨(kind_range _).1, (kind_range _).2, rfl, payload_fits _⟩

theorem FitsItsFrame.readPrices (tag : Byte) : FitsItsFrame.Statement (.readPrices tag) := by
  intro t c level h; cases h; exact ⟨(kind_range _).1, (kind_range _).2, rfl, payload_fits _⟩

theorem FitsItsFrame.readHead (tag : Byte) (head : Byte) : FitsItsFrame.Statement (.readHead tag head) := by
  intro t c level h; cases h; exact ⟨(kind_range _).1, (kind_range _).2, rfl, payload_fits _⟩

theorem FitsItsFrame.cardMode (tag : Byte) (args : CardModeArgs) : FitsItsFrame.Statement (.cardMode tag args) := by
  intro t c level h; cases h; exact ⟨(kind_range _).1, (kind_range _).2, rfl, payload_fits _⟩

theorem FitsItsFrame.cardRestart (tag : Byte) : FitsItsFrame.Statement (.cardRestart tag) := by
  intro t c level h; cases h; exact ⟨(kind_range _).1, (kind_range _).2, rfl, payload_fits _⟩

theorem FitsItsFrame.cardStop (tag : Byte) : FitsItsFrame.Statement (.cardStop tag) := by
  intro t c level h; cases h; exact ⟨(kind_range _).1, (kind_range _).2, rfl, payload_fits _⟩

theorem FitsItsFrame.cardTake (tag : Byte) : FitsItsFrame.Statement (.cardTake tag) := by
  intro t c level h; cases h; exact ⟨(kind_range _).1, (kind_range _).2, rfl, payload_fits _⟩

theorem FitsItsFrame.cardSend (tag : Byte) (content : List Byte) : FitsItsFrame.Statement (.cardSend tag content) := by
  intro t c level h; cases h; exact ⟨(kind_range _).1, (kind_range _).2, rfl, payload_fits _⟩

theorem FitsItsFrame.readCard (tag : Byte) : FitsItsFrame.Statement (.readCard tag) := by
  intro t c level h; cases h; exact ⟨(kind_range _).1, (kind_range _).2, rfl, payload_fits _⟩

theorem FitsItsFrame.readFault (tag : Byte) (domain : Byte) : FitsItsFrame.Statement (.readFault tag domain) := by
  intro t c level h; cases h; exact ⟨(kind_range _).1, (kind_range _).2, rfl, payload_fits _⟩

theorem FitsItsFrame.clearFault (tag : Byte) (domain token : Byte) : FitsItsFrame.Statement (.clearFault tag domain token) := by
  intro t c level h; cases h; exact ⟨(kind_range _).1, (kind_range _).2, rfl, payload_fits _⟩

theorem FitsItsFrame.setTotals (tag : Byte) (slot : Byte) (volume money : BitVec 64) (switchClosed : Bool) : FitsItsFrame.Statement (.setTotals tag slot volume money switchClosed) := by
  intro t c level h; cases h; exact ⟨(kind_range _).1, (kind_range _).2, rfl, payload_fits _⟩

theorem FitsItsFrame.readTotals (tag : Byte) (slot : Byte) : FitsItsFrame.Statement (.readTotals tag slot) := by
  intro t c level h; cases h; exact ⟨(kind_range _).1, (kind_range _).2, rfl, payload_fits _⟩

theorem FitsItsFrame.recall (tag : Byte) (point : Byte) : FitsItsFrame.Statement (.recall tag point) := by
  intro t c level h; cases h; exact ⟨(kind_range _).1, (kind_range _).2, rfl, payload_fits _⟩

theorem FitsItsFrame.wake (tag : Byte) : FitsItsFrame.Statement (.wake tag) := by
  intro t c level h; cases h; exact ⟨(kind_range _).1, (kind_range _).2, rfl, payload_fits _⟩

theorem FitsItsFrame.sleep (tag : Byte) : FitsItsFrame.Statement (.sleep tag) := by
  intro t c level h; cases h; exact ⟨(kind_range _).1, (kind_range _).2, rfl, payload_fits _⟩

theorem FitsItsFrame.setClock (tag : Byte) (value : BitVec 32) : FitsItsFrame.Statement (.setClock tag value) := by
  intro t c level h; cases h; exact ⟨(kind_range _).1, (kind_range _).2, rfl, payload_fits _⟩

theorem FitsItsFrame.setSchedule (tag : Byte) (wake sleep : BitVec 32) (onLift : Byte) : FitsItsFrame.Statement (.setSchedule tag wake sleep onLift) := by
  intro t c level h; cases h; exact ⟨(kind_range _).1, (kind_range _).2, rfl, payload_fits _⟩

theorem FitsItsFrame.setWakeSequence (tag : Byte) (steps : List RawStep) : FitsItsFrame.Statement (.setWakeSequence tag steps) := by
  intro t c level h; cases h; exact ⟨(kind_range _).1, (kind_range _).2, rfl, payload_fits _⟩

theorem FitsItsFrame.setRestorePolicy (tag : Byte) (policy : Byte) : FitsItsFrame.Statement (.setRestorePolicy tag policy) := by
  intro t c level h; cases h; exact ⟨(kind_range _).1, (kind_range _).2, rfl, payload_fits _⟩

theorem FitsItsFrame.readPower (tag : Byte) : FitsItsFrame.Statement (.readPower tag) := by
  intro t c level h; cases h; exact ⟨(kind_range _).1, (kind_range _).2, rfl, payload_fits _⟩

theorem FitsItsFrame.goodFrame (kind tag : Byte) (payload : List Byte) (switchClosed : Bool) : FitsItsFrame.Statement (.goodFrame kind tag payload switchClosed) := by
  intro t c level h; cases h

theorem FitsItsFrame.badFrame (cause : BadCause) : FitsItsFrame.Statement (.badFrame cause) := by
  intro t c level h; cases h

theorem FitsItsFrame.interCharacterGap : FitsItsFrame.Statement .interCharacterGap := by
  intro t c level h; cases h

theorem FitsItsFrame.outboundFrameSent (switchClosed : Bool) : FitsItsFrame.Statement (.outboundFrameSent switchClosed) := by
  intro t c level h; cases h

theorem FitsItsFrame.linkLossTimeout : FitsItsFrame.Statement .linkLossTimeout := by
  intro t c level h; cases h

theorem FitsItsFrame.nozzleLift (slot : Slot) : FitsItsFrame.Statement (.nozzleLift slot) := by
  intro t c level h; cases h

theorem FitsItsFrame.nozzleHang (slot : Slot) : FitsItsFrame.Statement (.nozzleHang slot) := by
  intro t c level h; cases h

theorem FitsItsFrame.authorizationTimerExpiry (point : Side) : FitsItsFrame.Statement (.authorizationTimerExpiry point) := by
  intro t c level h; cases h

theorem FitsItsFrame.staggerIntervalExpiry : FitsItsFrame.Statement .staggerIntervalExpiry := by
  intro t c level h; cases h

theorem FitsItsFrame.runUpExpiry (point : Side) : FitsItsFrame.Statement (.runUpExpiry point) := by
  intro t c level h; cases h

theorem FitsItsFrame.suspendTimerExpiry (point : Side) : FitsItsFrame.Statement (.suspendTimerExpiry point) := by
  intro t c level h; cases h

theorem FitsItsFrame.settleIntervalExpiry (point : Side) : FitsItsFrame.Statement (.settleIntervalExpiry point) := by
  intro t c level h; cases h

theorem FitsItsFrame.runOnTimerExpiry (point : Side) : FitsItsFrame.Statement (.runOnTimerExpiry point) := by
  intro t c level h; cases h

theorem FitsItsFrame.pulserTransition (meter : Meter) (pair : Phases) : FitsItsFrame.Statement (.pulserTransition meter pair) := by
  intro t c level h; cases h

theorem FitsItsFrame.windowEnd : FitsItsFrame.Statement .windowEnd := by
  intro t c level h; cases h

theorem FitsItsFrame.deadlineTimerExpiry : FitsItsFrame.Statement .deadlineTimerExpiry := by
  intro t c level h; cases h

theorem FitsItsFrame.headRefresh (head : Side) (echo : List Bool) : FitsItsFrame.Statement (.headRefresh head echo) := by
  intro t c level h; cases h

theorem FitsItsFrame.segmentTestAllOnEnd (head : Side) : FitsItsFrame.Statement (.segmentTestAllOnEnd head) := by
  intro t c level h; cases h

theorem FitsItsFrame.segmentTestAllOffEnd (head : Side) : FitsItsFrame.Statement (.segmentTestAllOffEnd head) := by
  intro t c level h; cases h

theorem FitsItsFrame.warmInputChange (head : Side) (warm : Bool) : FitsItsFrame.Statement (.warmInputChange head warm) := by
  intro t c level h; cases h

theorem FitsItsFrame.cardByteReceived (byte : Byte) : FitsItsFrame.Statement (.cardByteReceived byte) := by
  intro t c level h; cases h

theorem FitsItsFrame.cardLineError : FitsItsFrame.Statement .cardLineError := by
  intro t c level h; cases h

theorem FitsItsFrame.cardBreak : FitsItsFrame.Statement .cardBreak := by
  intro t c level h; cases h

theorem FitsItsFrame.cardGapExpiry : FitsItsFrame.Statement .cardGapExpiry := by
  intro t c level h; cases h

theorem FitsItsFrame.readyTimerExpiry : FitsItsFrame.Statement .readyTimerExpiry := by
  intro t c level h; cases h

theorem FitsItsFrame.restartOffDelayElapsed : FitsItsFrame.Statement .restartOffDelayElapsed := by
  intro t c level h; cases h

theorem FitsItsFrame.cardFrameSent : FitsItsFrame.Statement .cardFrameSent := by
  intro t c level h; cases h

theorem FitsItsFrame.cardTxGapElapsed : FitsItsFrame.Statement .cardTxGapElapsed := by
  intro t c level h; cases h

theorem FitsItsFrame.tamper : FitsItsFrame.Statement .tamper := by
  intro t c level h; cases h

theorem FitsItsFrame.recordWriteComplete : FitsItsFrame.Statement .recordWriteComplete := by
  intro t c level h; cases h

theorem FitsItsFrame.powerFailWarning : FitsItsFrame.Statement .powerFailWarning := by
  intro t c level h; cases h

theorem FitsItsFrame.resetAsserted : FitsItsFrame.Statement .resetAsserted := by
  intro t c level h; cases h

theorem FitsItsFrame.resetReleased : FitsItsFrame.Statement .resetReleased := by
  intro t c level h; cases h

theorem FitsItsFrame.supplyRecovery : FitsItsFrame.Statement .supplyRecovery := by
  intro t c level h; cases h

theorem FitsItsFrame.supplyDip : FitsItsFrame.Statement .supplyDip := by
  intro t c level h; cases h

theorem FitsItsFrame.collapse : FitsItsFrame.Statement .collapse := by
  intro t c level h; cases h

theorem FitsItsFrame.backupCellChange (reading : CellReading) : FitsItsFrame.Statement (.backupCellChange reading) := by
  intro t c level h; cases h

theorem FitsItsFrame.restoreWaitComplete (strapHigh : Bool) : FitsItsFrame.Statement (.restoreWaitComplete strapHigh) := by
  intro t c level h; cases h

theorem FitsItsFrame.scheduledWakeTime : FitsItsFrame.Statement .scheduledWakeTime := by
  intro t c level h; cases h

theorem FitsItsFrame.scheduledSleepTime : FitsItsFrame.Statement .scheduledSleepTime := by
  intro t c level h; cases h

theorem FitsItsFrame.wakeWaitTimerExpiry : FitsItsFrame.Statement .wakeWaitTimerExpiry := by
  intro t c level h; cases h

theorem FitsItsFrame.steadyIntervalComplete : FitsItsFrame.Statement .steadyIntervalComplete := by
  intro t c level h; cases h

theorem FitsItsFrame.hostCharacterReceived (byte : Byte) (lineError : Bool) : FitsItsFrame.Statement (.hostCharacterReceived byte lineError) := by
  intro t c level h; cases h

theorem FitsItsFrame.tamperInputClosed : FitsItsFrame.Statement .tamperInputClosed := by
  intro t c level h; cases h

end Sys2Proof.Laws
end

