-- ==== Sys2Proof/Tests/Slice0.lean ====
section
/-! SUPPORT. The model's own tests: ill-formed rows that WellFormed refuses, worked examples of the spec, one step on a small
state here and there, and for every statement with hypotheses a state and operands that meet them. -/

namespace Sys2Proof.Tests

open Sys2Proof Sys2Proof.Machine

/- One proof at a time: the kernel's evaluations otherwise each hold a thread of their own. -/
set_option Elab.async false

/-! ### Ill-formed rows -/

theorem test_wf_meter_table : (Instr.setMeterTable 1 0 (List.replicate 42 ⟨1, 1⟩) true).wf = false := by decide +kernel
theorem test_wf_wake_sequence : (Instr.setWakeSequence 1 (List.replicate 42 ⟨0, 0, 0, 0, 0⟩)).wf = false := by decide +kernel
theorem test_wf_card_send : (Instr.cardSend 1 (List.replicate 251 0)).wf = false := by decide +kernel
theorem test_wf_good_frame : (Instr.goodFrame 1 1 (List.replicate 251 0) true).wf = false := by decide +kernel
theorem test_wf_bad_frame : (Instr.badFrame .gap).wf = false := by decide +kernel
theorem test_wf_head_refresh : (Instr.headRefresh .a (List.replicate 223 false)).wf = false := by decide +kernel
theorem test_wf_accepts : (Instr.setMeterTable 1 0 (List.replicate 41 ⟨1, 1⟩) true).wf = true := by decide +kernel

/-! ### Worked examples of the spec -/

/-- The table of section 2.8. -/
def exampleTable : List TablePoint := [⟨50, 1002000⟩, ⟨200, 998000⟩, ⟨400, 997500⟩]

/-- Section 2.8, rows n = 30, 100, 200, 300 and section 2.11, n = 4083. -/
theorem test_window_volumes : windowVolume exampleTable 30 = 30060000 ∧ windowVolume exampleTable 100 = 100066700 ∧
    windowVolume exampleTable 200 = 199600000 ∧ windowVolume exampleTable 300 = 299325000 ∧
    windowVolume exampleTable 4083 = 4072792500 := by decide +kernel

/-- Section 3.6: targets of the table. -/
theorem test_money_targets : moneyTarget 5000 1459 = 3427 ∧ moneyTarget 5000 1000 = 5000 ∧ moneyTarget 5000 9999 = 500 ∧
    moneyTarget 5005 9999 = 501 ∧ moneyTarget 5000 7 = 714215 := by decide +kernel

/-- Section 3.6: capacity targets, and the target source at the money bound. -/
theorem test_capacity_targets : capacityTarget 1459 = 684716 ∧ capacityTarget 1000 = 999000 ∧
    capacityTarget 9999 = 99910 ∧ capacityTarget 7 = 999000 ∧
    targetOf (some (.money 999000)) 1459 = (684716, .preset) := by decide +kernel

/-- R95: 0 shows as 0.00 and 34281 cL as 342.81; the last row of its table. -/
theorem test_figures : figureField 0 = [⟨.blank, false⟩, ⟨.blank, false⟩, ⟨.blank, false⟩, ⟨.digit 0, true⟩,
      ⟨.digit 0, false⟩, ⟨.digit 0, false⟩] ∧
    figureField 34281 = [⟨.blank, false⟩, ⟨.digit 3, false⟩, ⟨.digit 4, false⟩, ⟨.digit 2, true⟩, ⟨.digit 8, false⟩,
      ⟨.digit 1, false⟩] ∧
    figureField 999999 = [⟨.digit 9, false⟩, ⟨.digit 9, false⟩, ⟨.digit 9, false⟩, ⟨.digit 9, true⟩, ⟨.digit 9, false⟩,
      ⟨.digit 9, false⟩] := by decide +kernel

/-- R96: 9 shows as 0.009 and 1,459 as 1.459. -/
theorem test_prices : priceField 9 = [⟨.digit 0, true⟩, ⟨.digit 0, false⟩, ⟨.digit 0, false⟩, ⟨.digit 9, false⟩] ∧
    priceField 1459 = [⟨.digit 1, true⟩, ⟨.digit 4, false⟩, ⟨.digit 5, false⟩, ⟨.digit 9, false⟩] := by decide +kernel

/-- R10: the number after 65535 is 1. -/
theorem test_sale_number_wraps : nextNumber 0xFFFF = 1 ∧ nextNumber 5 = 6 := by decide +kernel

/-- 00_scope.md: the CRC-16 of the characters 123456789 is 29B1 hex. -/
theorem test_check_code : crc16 [0x31, 0x32, 0x33, 0x34, 0x35, 0x36, 0x37, 0x38, 0x39] = 0x29B1 := by decide +kernel

/-! ### Small states -/

/-- Hoses A1 and A2 on meters M0 and M1, B1 on M3. -/
def hoses : Vector (Option Hose) 8 :=
  #v[some ⟨0, 0, 5⟩, some ⟨1, 1, 5⟩, none, none, some ⟨0, 3, 5⟩, none, none, none]

/-- A part in RUN with both points IDLE, prices set, and nothing waiting. -/
def inRun : State :=
  { State.reset with
    now := 5000,
    points := ⟨{ Point.afterRestore with state := .idle }, { Point.afterRestore with state := .idle }⟩,
    metrology := ⟨{ MetrologyData.blank with hoses := hoses }, false⟩,
    prices := { PriceTable.afterRestore with active := #v[some 1459, some 1000, none, none], generation := 4 },
    heads := ⟨{ Head.afterRestore true with power := true }, { Head.afterRestore true with power := true }⟩,
    power := { PowerController.initial with
      state := .run, supply := .aboveRestore, motorDrive := true, clockKept := true, clockValid := true } }

/-- Point A replaced. -/
def pointA (x : Point) : State := inRun.setPoint .a x

/-- An entry for every grade, a preset of 20.00 litres, no link. -/
def anEntry : Entry := ⟨15, some (.volume 2000), .none, 4⟩

/-- Sale 9 on hose A1. -/
def aSale : SaleRecord := SaleRecord.opened .a 9 0 0 1459 4 anEntry 50

/-- Sale 9 with 3 cL. -/
def flowed : SaleRecord := { aSale with v := 30060000, displayed := 3, money := 4 }

def calling : State :=
  (pointA { Point.afterRestore with state := .calling, nozzles := [0] }).withPins
    { Pins.initial with nozzleUp := Pins.initial.nozzleUp.set 0 true }

/-- Point A in CALLING, and A1 its only present slot. -/
def callingAlone : State :=
  { calling with metrology := ⟨{ MetrologyData.blank with hoses := hoses.set 1 none }, false⟩ }

def entered : State :=
  pointA { Point.afterRestore with state := .authorized, entry := some anEntry, authDue := some 9000 }

/-- Point A waits for its grant. -/
def requesting : State :=
  ((pointA { Point.afterRestore with state := .starting, sale := some aSale, nozzles := [0] }).withArbiter
    ⟨[.a], some 4900, 500⟩).setMeter 0 { MeterUnit.afterRestore ⟨false, false⟩ with holder := some .a }

/-- Point A has its grant; its run-up and the segment test run. -/
def granted : State :=
  (pointA { Point.afterRestore with
    state := .starting, sale := some aSale, nozzles := [0], relay := true, runUp := .running 5300 }).setHead .a
    { Head.afterRestore true with power := true, test := .allOff 4700 }

/-- Point A in a sale-active state. -/
def serving (st : PointState) (r : SaleRecord) : State :=
  ((pointA { Point.afterRestore with
    state := st, sale := some r, nozzles := [0], relay := decide (st ≠ .stopping), runUp := .expired, testPassed := true,
    resume := if st = .suspended then some .fuelling else none,
    suspendDue := if st = .suspended then some 9000 else none,
    settle := if st = .stopping then some ⟨6000, 1500⟩ else none,
    runOnDue := if st = .stopping then some 9000 else none }).setMeter 0
      { MeterUnit.afterRestore ⟨false, false⟩ with holder := some .a, count := 30 }).withPins
    { Pins.initial with nozzleUp := Pins.initial.nozzleUp.set 0 true }

/-- A finished sale of point A. -/
def finished : State := pointA { Point.afterRestore with state := .idle, stack := [{ flowed with endReason := some .nozzle }] }

/-- The power controller in another state, both points CLOSED. -/
def inPower (x : PowerState) : State :=
  (inRun.withPoints ⟨.afterRestore, .afterRestore⟩).withPower { inRun.power with state := x, motorDrive := false }

/-- The card channel in a state. -/
def withReader (x : CardState) : State := inRun.withCard { inRun.card with state := x }

/-- All four reply slots wait for writes. -/
def slotsFull : State :=
  inRun.withLink { inRun.link with waiting := List.replicate 4 ⟨0x27, 1, .write .settings true [0, 0]⟩, lossDue := some 9000 }

/-- The capture of a domain holds this fault. -/
def holding (d : Domain) (sev : Severity) : State := inRun.setCapture d ⟨some ⟨.tamper, sev, none, none⟩, 3, false⟩

/-! ### Notices and one step of a few rows -/

/-- R194: the POINT notice of an IDLE point in RUN, byte by byte: header, then the 23 bytes of the record. -/
theorem test_point_notice : (inRun.noticeFrame ⟨.point .a, false⟩).frame = ⟨0xC1, 0,
    [2, 4, 0, 0, 0, 0, 1, 0xFF, 0, 0xFF, 0xFF, 0xFF, 0xFF, 0xFF, 0, 0, 0, 0, 0, 0, 0, 0, 0, 0xFF, 0, 0, 0, 0, 0]⟩ := by
  decide +kernel

/-- R194: the largest power status record, with 16 findings, two recovered sales and eight steps, is 149 bytes. -/
theorem test_largest_power_record :
    (inRun.withPower { inRun.power with
      table := List.replicate 8 ⟨.reader, .readerReady, 5, .goOn⟩
      summary := { Summary.empty with
        recovered := [⟨.a, 1⟩, ⟨.b, 2⟩]
        findings := List.replicate 16 ⟨.totalsLost, .pointA, some (.slot 1)⟩ } }).powerReply.length = 149 := by
  decide +kernel

/-- R54: point A is CALLING with A1 up; A1 made absent empties its list, and while A2 is present the point is IDLE (R4, R5). -/
theorem test_slot_made_absent : (match exec (.setHose 3 ⟨0, 0, 0, 0, 0⟩ true) calling with
    | .next t => decide ((t.point .a).nozzles = [] ∧ (t.point .a).state = .idle ∧ t.hose 0 = none)
    | _ => false) = true := by decide +kernel

/-- R54: A1 made absent as the last present slot of point A: it stays in CALLING (log entry 33). -/
theorem test_last_slot_made_absent : (match exec (.setHose 3 ⟨0, 0, 0, 0, 0⟩ true) callingAlone with
    | .next t => decide ((t.point .a).nozzles = [] ∧ (t.point .a).state = .calling)
    | _ => false) = true := by decide +kernel

/-- R4, R10: lifting A1 with an entry starts sale 1 at once and the motor is granted. -/
theorem test_lift_starts : (match exec (.nozzleLift 0) entered with
    | .next t => decide ((t.point .a).state = .starting ∧ (t.point .a).relay = true ∧ (t.point .a).lastNumber = 1 ∧
        (t.meter 0).holder = some .a)
    | _ => false) = true := by decide +kernel

/-- R161, R162: the first supply takes the part from DARK to RESTORE. -/
theorem test_first_supply : (match exec .supplyRecovery State.reset with
    | .next t => decide (t.power.state = .restore ∧ t.power.cause = .dark ∧ t.power.restoreWaiting = true)
    | _ => false) = true := by decide +kernel

/-- R164 to R166: with blank records the restore ends in STANDBY with CLOCK_LOST. -/
theorem test_first_restore : (match execAll [.supplyRecovery, .restoreWaitComplete false] State.reset with
    | .next t => decide (t.power.state = .standby ∧ (t.capture .supply).fault.map (·.code) = some .clockLost)
    | _ => false) = true := by decide +kernel

/-- R5, R21: hanging A1 in FUELLING stops the sale with end reason NOZZLE, which the POINT notice reports. -/
theorem test_hang_stops : (match exec (.nozzleHang 0) (serving .fuelling flowed) with
    | .next t => decide ((t.point .a).state = .stopping ∧ ((t.point .a).sale.bind (·.endReason)) = some .nozzle ∧
        (t.noticeFrame ⟨.point .a, false⟩).unplaced = [.endReason .nozzle])
    | _ => false) = true := by decide +kernel

/-- R83, R84: AT_IDLE with no sale applies at once. -/
theorem test_price_applies : (match exec (.priceChange 7 ⟨1500, 0xFFFF, 0xFFFF, 0xFFFF, 1, 0⟩) inRun with
    | .next t => decide (t.prices.active.get 0 = some 1500 ∧ t.prices.active.get 1 = some 1000 ∧ t.prices.generation = 5)
    | _ => false) = true := by decide +kernel

/-- R113, R118: a good frame of one byte takes a STARTING channel to OPEN. -/
theorem test_card_frame_opens :
    (match execAll ((CardMode.framed.lineCharacters [0x41]).map .cardByteReceived) (withReader .starting) with
    | .next t => decide (t.card.state = .opened ∧ t.card.inbound = [⟨[0x41], .ok⟩])
    | _ => false) = true := by decide +kernel

/-- R172: a schedule set in the second it names, which the clock has entered by running, brings no arrival before the next day. -/
theorem test_schedule_in_its_second :
    let s := inRun.withPower { inRun.power with state := .standby, clock := 600, clockMs := 250, clockEntered := true }
    (match exec (.setSchedule 1 600 0xFFFFFFFF 0) s with
    | .next t => decide (t.power.wakeTime = some 600 ∧ t.power.untilSecond 600 = 86400 * 1000 - 250)
    | _ => false) = true := by decide +kernel

/-! ### States and operands that meet the hypotheses of the statements -/

theorem witness_StepExecutesTheFrontRow : (inRun.withPending [.tamper, .windowEnd]).pending = .tamper :: [.windowEnd] := rfl

theorem witness_IdleStepRunsTheClock : inRun.pending = [] ∧ inRun.power.clock < 86400 ∧ inRun.power.clockMs < 1000 ∧
    ¬ (inRun.power.state = .dark ∧ inRun.power.cell = .low) ∧
    (State.reset.withPower { State.reset.power with cell := .low }).power.state = .dark := by decide +kernel

/-- A point delivering, with the host's SUSPEND waiting: every invariant holds and the step goes on. -/
theorem witness_StepKeepsInvariants :
    (serving .fuelling flowed).salesSound ∧ (serving .fuelling flowed).stacksSound ∧ (serving .fuelling flowed).card.sound ∧
    (serving .fuelling flowed).link.sound ∧ (serving .fuelling flowed).store.sound ∧ (serving .fuelling flowed).bounded ∧
    (match step ((serving .fuelling flowed).withPending [.suspend 1 0]) with
      | .next t => decide ((t.point .a).state = .suspended)
      | _ => false) = true := by
  refine ⟨?_, ?_, ?_, ?_, ?_, ?_, ?_⟩ <;> decide +kernel

theorem witness_CommandFrameReadsBack : (Command.setWakeSequence [⟨1, 2, 0, 300, 1⟩]).wf = true := by decide +kernel

theorem witness_FrameCharactersArriveAsTheFrame : inRun.running = true ∧ inRun.link.receiver = .hunting ∧
    (⟨5, 1, [0]⟩ : Frame).payload.length ≤ 250 := by decide +kernel

theorem witness_CardFrameCharactersJoinTheRing : (withReader .opened).card.state = .opened ∧
    (withReader .opened).card.settings.mode = .framed ∧ (withReader .opened).card.reception = .outside ∧
    [(0x41 : Byte)].length ≤ 250 ∧ (withReader .opened).card.inbound.length < 8 ∧
    [(0x41 : Byte)].length + 4 ≤ (withReader .opened).card.inboundFree ∧
    (withReader .opened).waitsFor .readerReady = false := by decide +kernel

theorem witness_CommandRowGoesToItsOwner :
    Instr.asCommand (.setHose 3 ⟨0, 1, 0, 0, 5⟩ true) = some (3, .setHose ⟨0, 1, 0, 0, 5⟩, some true) ∧ inRun.takes := by
  decide +kernel

theorem witness_GoodFrameIsTaken : inRun.takes ∧ inRun.link.up = true ∧ inRun.link.queue = [] ∧ (Command.stop 0).wf = true ∧
    (Command.payload (.stop 0)).length ≤ 250 ∧ inRun.link.lossDue = none ∧ inRun.link.receiver = .hunting ∧
    0x29 ≤ (0x29 : Byte).toNat ∧ parsePayload (6 : Byte).toNat [] = none := by decide +kernel

theorem witness_TakenCommandHoldsOneReplySlot : Instr.asCommand (.stop 3 0) = some (3, .stop 0, none) ∧ inRun.takes ∧
    (∀ w ∈ inRun.link.waiting, w.waits ≠ .owner) := by decide +kernel

theorem witness_FullQueueOverruns : slotsFull.running = true ∧ slotsFull.link.free = 0 ∧ slotsFull.link.up = true ∧
    slotsFull.link.queue.length < 4 ∧ slotsFull.link.lossDue ≠ none ∧
    (slotsFull.withLink { slotsFull.link with queue := List.replicate 4 ⟨0x28, 1, []⟩ }).link.queue.length = 4 := by
  decide +kernel

theorem witness_BadFrameIsCounted :
    (inRun.withLink { inRun.link with receiver := .inFrame [0] 4999 }).link.receiver = .inFrame [0] 4999 ∧
    inRun.running = true := by decide +kernel

/-- The receiver before the LEN byte, inside a frame, before the byte that completes a frame of no payload (with the check code
that agrees, and with another), and after more than 10 ms of silence. -/
theorem witness_HostCharacterMovesTheReceiver :
    let at' := fun (b : List Byte) (last : Nat) => inRun.withLink { inRun.link with receiver := .inFrame b last }
    let c := crcBytes [0, 0x28, 9]
    inRun.running = true ∧ inRun.link.receiver = .hunting ∧ (at' [] 4990).link.receiver = .inFrame [] 4990 ∧
    inRun.now ≤ 4990 + 10 ∧ 250 < (0xFB : Byte).toNat ∧ (0xFA : Byte).toNat ≤ 250 ∧
    (at' [1, 6] 4999).link.receiver = .inFrame (1 :: [6]) 4999 ∧ [(6 : Byte)].length + 2 < (1 : Byte).toNat + 5 ∧
    (at' [0, 0x28, 9, c.headD 0] 4999).link.receiver = .inFrame (0 :: [0x28, 9, c.headD 0]) 4999 ∧
    [0x28, 9, c.headD 0] ++ [c.getD 1 0] = (0x28 : Byte) :: 9 :: c ∧ c.length = (0 : Byte).toNat + 2 ∧
    crcBytes (0 :: 0x28 :: 9 :: c.take (0 : Byte).toNat) = c.drop (0 : Byte).toNat ∧
    crcBytes [0, 0x28, 9] ≠ [c.headD 0, c.getD 1 0 + 1] ∧ 4989 + 10 < inRun.now := by decide +kernel

/-- A reply on the line with another behind it, with nothing, with notices and with queued commands behind it; a notice on the line
with a reply, with nothing and with two notices of one class and one of a later class behind it; and one raised again. -/
theorem witness_SentFrameMakesWayForTheNext :
    let on := fun (l : Line) (fin : List Message) (ns : List QueuedNotice) =>
      inRun.withLink { inRun.link with line := l, finished := fin, notices := ns }
    let reply : Line := .reply ⟨0x80, 1, [], []⟩
    let note : Line := .notice .card ⟨0x70, 1, [], []⟩ false false
    let three : List QueuedNotice := [⟨.power, false⟩, ⟨.point .b, false⟩, ⟨.point .a, true⟩]
    let full := inRun.withLink { (on reply [] []).link with
      queue := [⟨2, 5, []⟩, ⟨0x28, 6, []⟩], waiting := List.replicate 3 ⟨0x27, 1, .write .settings true [0, 0]⟩ }
    (on reply [⟨0x81, 2, [], []⟩] []).link.line = .reply ⟨0x80, 1, [], []⟩ ∧
    (on reply [⟨0x81, 2, [], []⟩] []).link.finished = ⟨0x81, 2, [], []⟩ :: [] ∧ (on reply [] []).link.queue = [] ∧
    (on reply [] three).link.notices ≠ [] ∧ (on reply [] three).link.finished = [] ∧
    full.link.line = .reply ⟨0x80, 1, [], []⟩ ∧ full.link.queue = ⟨2, 5, []⟩ :: [⟨0x28, 6, []⟩] ∧
    full.link.waiting.length + full.link.finished.length = 3 ∧ (∀ w ∈ full.link.waiting, w.waits ≠ .owner) ∧
    (on note [⟨0x81, 2, [], []⟩] []).link.line = .notice .card ⟨0x70, 1, [], []⟩ false false ∧
    (on note [⟨0x81, 2, [], []⟩] []).link.finished = ⟨0x81, 2, [], []⟩ :: [] ∧ (on note [] []).link.notices = [] ∧
    (on note [] three).link.notices ≠ [] ∧
    (on (.notice .price ⟨0x71, 0, [], []⟩ true true) [] []).link.line = .notice .price ⟨0x71, 0, [], []⟩ true true ∧
    inRun.link.line = .idle := by decide +kernel

theorem witness_LinkIsLostAndRestored :
    (entered.withLink { entered.link with lossDue := some 9000 }).link.lossDue = some 9000 ∧ entered.running = true ∧
    entered.link.up = true ∧ (∀ p, (entered.point p).state = .authorized ↔ (entered.point p).entry.isSome = true) ∧
    slotsFull.lossTimed = true ∧ (slotsFull.withLink { slotsFull.link with up := false }).link.up = false ∧
    (slotsFull.withLink { slotsFull.link with up := false }).link.free = 0 ∧
    (∀ p, (slotsFull.point p).state ≠ .authorized) := by
  refine ⟨by decide +kernel, by decide +kernel, by decide +kernel, ?_, by decide +kernel, by decide +kernel,
    by decide +kernel, ?_⟩ <;> intro p <;> cases p <;> decide +kernel

theorem witness_BlockReadsAnswer : inRun.takes ∧ (∀ w ∈ inRun.link.waiting, w.waits ≠ .owner) ∧ sideOf 1 = some .b ∧
    2 ≤ (2 : Byte).toNat := by decide +kernel

theorem witness_RecordReadsAnswer : finished.takes ∧ sideOf 0 = some .a ∧
    ((finished.point .a).stack.map SaleRecord.number).Nodup ∧
    { flowed with endReason := some .nozzle } ∈ (finished.point .a).stack ∧ flowed.number = 9 ∧
    ((serving .fuelling flowed).point .a).sale = some flowed ∧ (serving .fuelling flowed).takes ∧
    (finished.point .a).sale = none ∧ slotOf 7 = some 7 ∧ selectorOf 2 5 = some (.meter 5) := by decide +kernel

theorem witness_FaultArrivalIsRecorded : (inRun.capture .card).fault = none ∧
    ((holding .card .note).capture .card).fault = some ⟨.tamper, .note, none, none⟩ ∧
    Severity.note.code.toNat < Severity.halt.code.toNat ∧ inRun.running = true ∧ Domain.supply ≠ Domain.card := by
  decide +kernel

theorem witness_ReadFaultReturnsTheCapture : (holding .card .note).takes ∧ domainOf 2 = some .card ∧
    4 ≤ (4 : Byte).toNat ∧ ((holding .card .note).capture .card).fault = some ⟨.tamper, .note, none, none⟩ ∧
    ((holding .card .note).capture .supply).fault = none := by decide +kernel

theorem witness_ClearFaultNeedsTheToken : (holding .supply .halt).takes ∧ domainOf 3 = some .supply ∧
    (3 : Byte).toNat = ((holding .supply .halt).capture .supply).token.toNat ∧
    (4 : Byte).toNat ≠ ((holding .supply .halt).capture .supply).token.toNat ∧
    ((holding .supply .halt).capture .supply).fault ≠ none ∧
    (0 : Byte).toNat = (inRun.capture .supply).token.toNat ∧ (inRun.capture .supply).fault = none ∧
    15 < (16 : Byte).toNat := by decide +kernel

/-- A first nozzle, a second one, and one that wakes a part in STANDBY with an empty wake table. -/
theorem witness_NozzleLiftJoinsTheList :
    let s := (inPower .standby).withPower { (inPower .standby).power with table := [], wakeOnLift := true }
    Slot.side 0 = .a ∧ inRun.running = true ∧ inRun.power.wakeOnLift = false ∧
    inRun.pins.nozzleUp.get 0 = false ∧ (inRun.hose 0).isSome = true ∧ 0 ∉ (inRun.point .a).nozzles ∧
    (inRun.point .a).nozzles = [] ∧ (inRun.point .a).state ≠ .authorized ∧
    calling.pins.nozzleUp.get 1 = false ∧ (calling.hose 1).isSome = true ∧ 1 ∉ (calling.point .a).nozzles ∧
    (calling.point .a).nozzles ≠ [] ∧ s.running = true ∧ s.power.wakeOnLift = true ∧ s.power.state = .standby ∧
    s.holdsHalt .supply = false ∧ (s.point .a).nozzles = [] ∧ (s.point .a).state = .closed ∧ s.prices.pending = none ∧
    s.power.table = [] ∧ (holding .supply .halt).holdsHalt .supply = true := by decide +kernel

/-- A hang in CALLING, of the sale's hose, of another slot during a sale, in STOPPING, and of the last nozzle of an entry. -/
theorem witness_NozzleHangLeavesTheList :
    let up := fun (s : State) => s.withPins { s.pins with nozzleUp := (s.pins.nozzleUp.set 0 true).set 1 true }
    let two := up (pointA { ((serving .fuelling flowed).point .a) with nozzles := [0, 1] })
    let one := up (pointA { (entered.point .a) with nozzles := [0] })
    Slot.side 0 = .a ∧ calling.running = true ∧ calling.pins.nozzleUp.get 0 = true ∧
    0 ∈ (calling.point .a).nozzles ∧ (calling.point .a).state = .calling ∧
    (serving .fuelling flowed).pins.nozzleUp.get 0 = true ∧ 0 ∈ ((serving .fuelling flowed).point .a).nozzles ∧
    ((serving .fuelling flowed).point .a).sale = some flowed ∧ flowed.hose = 0 ∧
    Slot.side 1 = .a ∧ two.pins.nozzleUp.get 1 = true ∧ 1 ∈ (two.point .a).nozzles ∧
    (two.point .a).state.saleActive = true ∧ (two.point .a).sale.any (fun r => decide (r.hose = 1)) = false ∧
    ((serving .stopping flowed).point .a).state = .stopping ∧ 0 ∈ ((serving .stopping flowed).point .a).nozzles ∧
    one.pins.nozzleUp.get 0 = true ∧ (one.point .a).entry = some anEntry ∧ (one.point .a).state = .authorized ∧
    (one.point .a).nozzles = [0] := by decide +kernel

/-- An AUTHORIZE with no nozzle up, one for a grade the lifted hose does not carry, and one that starts the sale; and a state for
each refusal. -/
theorem witness_AuthorizeMakesTheEntry : sideOf 0 = some .a ∧ maskOf 1 = some 1 ∧ maskOf 2 = some 2 ∧
    presetOf 1 (2000 : BitVec 32).toNat = some (some (.volume 2000), false) ∧
    presetOf 2 999001 = some (some (.money 999000), true) ∧ linkOf 0 = some .none ∧ inRun.takes ∧
    inRun.power.state = .run ∧ (inRun.point .a).state = .idle ∧ (inRun.point .a).stack.length ≤ 1 ∧
    (∀ g, maskHas 1 g = true → (inRun.prices.active.get g).isSome = true) ∧
    (∀ g, maskHas 2 g = true → (inRun.prices.active.get g).isSome = true) ∧ (inRun.point .a).nozzles = [] ∧
    (calling.point .a).nozzles = 0 :: [] ∧ calling.hose 0 = some ⟨0, 0, 5⟩ ∧
    calling.prices.active.get 0 = some 1459 ∧ maskHas 2 0 = false ∧ maskHas 1 0 = true ∧
    (calling.totals 0).blocked = false ∧ calling.link.up = true ∧ calling.totalsPending .a = false ∧
    (calling.point .a).options.runUp ≠ 0 ∧
    16 ≤ (16 : Byte).toNat ∧ (inPower .standby).power.state ≠ .run ∧ (inPower .standby).takes ∧
    (requesting.point .a).state = .starting ∧
    (pointA { Point.afterRestore with state := .idle, stack := [flowed, flowed] }).takes ∧
    2 ≤ ((pointA { Point.afterRestore with state := .idle, stack := [flowed, flowed] }).point .a).stack.length ∧
    ¬ (∀ g, maskHas 4 g = true → (inRun.prices.active.get g).isSome = true) := by decide +kernel

theorem witness_LiftStartsTheSale : Slot.side 0 = .a ∧ (entered.point .a).entry = some anEntry ∧
    entered.hose 0 = some ⟨0, 0, 5⟩ ∧ entered.prices.active.get 0 = some 1459 ∧ (entered.point .a).state = .authorized ∧
    entered.power.state = .run ∧ entered.pins.nozzleUp.get 0 = false ∧ (entered.point .a).nozzles = [] ∧
    maskHas anEntry.mask 0 = true ∧ (entered.totals 0).blocked = false ∧ entered.link.up = true ∧ anEntry.link = .none ∧
    entered.totalsPending .a = false ∧ entered.arbiter.requests = [] ∧ entered.staggerPassed = true ∧
    (entered.point .a).options.runUp ≠ 0 := by decide +kernel

theorem witness_CancelAndTimeoutVoidTheEntry : entered.takes ∧ sideOf 0 = some .a ∧ (entered.point .a).state = .authorized ∧
    (entered.point .a).entry.isSome = true ∧ (entered.point .a).authDue = some 9000 ∧ entered.running = true ∧
    (inRun.point .a).state ≠ .authorized ∧ 2 ≤ (2 : Byte).toNat := by decide +kernel

theorem witness_FuellingNeedsGrantTestRunUpAndLink : requesting.arbiter.requests = .a :: [] ∧
    requesting.arbiter.lastGrant = some 4900 ∧ (requesting.point .a).options.runUp ≠ 0 ∧
    (granted.point .a).sale = some aSale ∧ (granted.point .a).state = .starting ∧ granted.power.state = .run ∧
    Slot.side aSale.hose = .a ∧ (granted.point .a).runUp = .running 5300 ∧ (granted.head .a).test = .allOff 4700 := by
  decide +kernel

theorem witness_SuspendAndResume : sideOf 0 = some .a ∧ (serving .fuelling flowed).takes ∧
    ((serving .fuelling flowed).point .a).state = .fuelling ∧ ((serving .suspended flowed).point .a).state = .suspended ∧
    (serving .suspended flowed).takes ∧ ((serving .suspended flowed).point .a).resume = some .fuelling ∧
    ((serving .suspended flowed).point .a).sale = some flowed ∧ flowed.link = .none ∧
    (inRun.point .a).state = .idle ∧
    ((serving .suspended { flowed with link := .card }).point .a).sale = some { flowed with link := .card } ∧
    (serving .suspended { flowed with link := .card }).card.state ≠ .opened := by decide +kernel

theorem witness_StopEntersStopping : sideOf 0 = some .a ∧ (serving .suspended flowed).takes ∧
    ((serving .suspended flowed).point .a).sale = some flowed ∧ ((serving .suspended flowed).point .a).state = .suspended ∧
    ((serving .suspended flowed).point .a).suspendDue = some 9000 ∧ ((serving .stopping flowed).point .a).state = .stopping ∧
    (inRun.point .a).state.saleActive = false := by decide +kernel

theorem witness_SaleEndStacksAndSettles : ((serving .stopping flowed).point .a).sale = some flowed ∧
    ((serving .stopping flowed).point .a).settle = some ⟨6000, 1500⟩ ∧ (serving .stopping flowed).power.state = .run ∧
    flowed.displayed ≠ 0 ∧ ((serving .stopping flowed).totals flowed.hose).last ≠ flowed.number ∧
    (((serving .stopping flowed).setTotals 0 { Totals.blank with last := 9 }).totals flowed.hose).last = flowed.number ∧
    (serving .stopping flowed).prices.pending = none ∧ (serving .stopping flowed).store.queue = [] ∧
    (serving .stopping flowed).store.inFlight = none ∧ ((serving .stopping flowed).meter 0).holder = some .a ∧
    (∀ k, k ≠ 0 → ((serving .stopping flowed).meter k).holder ≠ some .a) := by decide +kernel

/-- A sale that ends in CLOSING, with the other point without a sale and with one. -/
theorem witness_SaleEndStacksAndSettles_closing :
    let s := (serving .stopping flowed).withPower { (serving .stopping flowed).power with state := .closing }
    let u := s.setPoint .b { Point.afterRestore with state := .stopping, sale := some { flowed with point := .b } }
    (s.point .a).sale = some flowed ∧ (s.point .a).settle = some ⟨6000, 1500⟩ ∧ s.power.state = .closing ∧
    (s.point (Side.other .a)).state.saleActive = false ∧ flowed.displayed ≠ 0 ∧ s.prices.pending = none ∧
    s.store.queue = [] ∧ s.store.inFlight = none ∧ u.power.state = .closing ∧
    (u.point (Side.other .a)).state.saleActive = true ∧ (u.point .a).sale = some flowed := by decide +kernel

theorem witness_SaleOfNothingIsDiscarded :
    let s := requesting.withPins { Pins.initial with nozzleUp := Pins.initial.nozzleUp.set 0 true }
    (s.point .a).sale = some aSale ∧ (s.point .a).state = .starting ∧ s.power.state = .run ∧ aSale.displayed = 0 ∧
    s.prices.pending = none ∧ s.arbiter.requests = [.a] ∧ (s.meter 0).holder = some .a ∧
    (∀ k, k ≠ 0 → (s.meter k).holder ≠ some .a) ∧ Slot.side aSale.hose = .a ∧ s.pins.nozzleUp.get aSale.hose = true ∧
    aSale.hose ∈ (s.point .a).nozzles ∧ sideOf 0 = some .a ∧ s.takes := by decide +kernel

theorem witness_RunOnLimitEndsTheSale : ((serving .stopping flowed).point .a).sale = some flowed ∧
    ((serving .stopping flowed).point .a).runOnDue = some 9000 ∧ (serving .stopping flowed).power.state = .run ∧
    (serving .stopping flowed).prices.pending = none ∧ ((serving .stopping flowed).point .a).closing = false ∧
    (serving .stopping flowed).holdsHalt (Side.domain .a) = false := by decide +kernel

/-- OPEN POINT meets: another power state, an open point, a HALT, and its own effect; CLOSE POINT meets a closed point, a sale
with and without its closing mark, and a waiting point. -/
theorem witness_OpenPointAndClosePoint :
    let s := pointA .afterRestore
    sideOf 0 = some .a ∧ s.takes ∧ s.power.state = .run ∧ (s.point .a).state = .closed ∧ s.hasHose .a = true ∧
    s.holdsHalt (Side.domain .a) = false ∧ (inPower .standby).power.state ≠ .run ∧ (inPower .standby).takes ∧
    (inRun.point .a).state ≠ .closed ∧
    (s.setCapture .pointA ⟨some ⟨.displayFault, .halt, none, none⟩, 1, false⟩).holdsHalt (Side.domain .a) = true ∧
    ((serving .fuelling flowed).point .a).state.saleActive = true ∧ ((serving .fuelling flowed).point .a).closing = false ∧
    ((pointA { Point.afterRestore with state := .fuelling, sale := some flowed, closing := true }).point .a).closing = true := by
  decide +kernel

theorem witness_RestartPointRestarts :
    let s := pointA { Point.afterRestore with state := .halted }
    sideOf 0 = some .a ∧ s.takes ∧ s.power.state = .run ∧ (s.point .a).state = .halted ∧
    s.holdsHalt (Side.domain .a) = false ∧ (inRun.point .a).state ≠ .halted ∧ (inPower .standby).power.state ≠ .run ∧
    (s.setCapture .pointA ⟨some ⟨.displayFault, .halt, none, none⟩, 1, false⟩).holdsHalt (Side.domain .a) = true := by
  decide +kernel

theorem witness_ClearSaleRemovesTheRecord : sideOf 0 = some .a ∧ finished.takes ∧
    9 ∈ (finished.point .a).stack.map SaleRecord.number ∧ 8 ∉ (finished.point .a).stack.map SaleRecord.number := by
  decide +kernel

theorem witness_PointOptionsAreStored : inRun.takes ∧ sideOf 1 = some .b ∧ inRun.arbiter.requests = [] ∧
    requesting.takes ∧ requesting.arbiter.requests = .a :: [] ∧ requesting.arbiter.lastGrant = some 4900 ∧
    requesting.arbiter.stagger ≠ min 5000 (100 : BitVec 16).toNat ∧ 4900 + min 5000 (100 : BitVec 16).toNat ≤ requesting.now ∧
    requesting.arbiter.stagger ≠ min 5000 (101 : BitVec 16).toNat ∧ requesting.now < 4900 + min 5000 (101 : BitVec 16).toNat ∧
    2 ≤ (2 : Byte).toNat := by decide +kernel

theorem witness_SettingsAreStored : inRun.takes ∧ cardSettingsOf ⟨0, 1, 5, 10, 0⟩ = some ⟨.framed, .b19200, 5, 10, .empty⟩ ∧
    inRun.card.state = .off ∧ inRun.card.restartPending = false ∧ (withReader .opened).card.state ≠ .off ∧
    cardSettingsOf ⟨2, 1, 5, 10, 0⟩ = none ∧ timeOf 0xFFFFFFFF = some none ∧ timeOf 86399 = some (some 86399) ∧
    flagOf 1 = some true ∧ 86400 ≤ (86400 : BitVec 32).toNat ∧
    wakeTableOf [⟨5, 4, 0, 10, 2⟩] = some [⟨.motorSupply, .supplySteady, 10, .abort⟩] ∧ inRun.power.state ≠ .waking ∧
    (inPower .waking).takes ∧ (inPower .waking).power.state = .waking ∧ wakeTableOf [⟨8, 4, 0, 10, 2⟩] = none ∧
    (1 : Byte).toNat < 2 := by decide +kernel

theorem witness_MetrologyIsStored : inRun.takes ∧ meterOf 5 = some 5 ∧
    tableOf [⟨1, 100000⟩, ⟨4095, 5000000⟩] = some [⟨1, 100000⟩, ⟨4095, 5000000⟩] ∧ inRun.meterBusy 0 = false ∧
    (serving .fuelling flowed).meterBusy 0 = true ∧ slotOf 2 = some 2 ∧ hoseOf ⟨2, 1, 3, 2, 50⟩ = some (some ⟨3, 2, 50⟩) ∧
    (some (⟨3, 2, 50⟩ : Hose)).all (fun y => inRun.meterFree 2 y.meter) = true ∧
    (inRun.point (Slot.side 2)).state.saleActive = false ∧ hoseOf ⟨0, 0, 0, 0, 0⟩ = some none ∧
    ((serving .fuelling flowed).point (Slot.side 0)).state.saleActive = true ∧ (serving .fuelling flowed).takes ∧
    meterOf 6 = none ∧ tableOf [⟨1, 100000⟩, ⟨1, 100000⟩] = none ∧ slotOf 8 = none ∧ hoseOf ⟨0, 1, 4, 0, 5⟩ = none ∧
    100 < (101 : Byte).toNat ∧ (some (⟨0, 3, 5⟩ : Hose)).all (fun y => inRun.meterFree 2 y.meter) = false := by decide +kernel

/-- A CALLING point loses its lifted slot with and without another present slot. -/
theorem witness_MetrologyIsStored_absent : calling.takes ∧ callingAlone.takes ∧ slotOf 0 = some 0 ∧
    hoseOf ⟨0, 0, 0, 0, 0⟩ = some none ∧ (calling.hose 0).isSome = true ∧ (callingAlone.hose 0).isSome = true ∧
    (calling.point (Slot.side 0)).state = .calling ∧ (callingAlone.point (Slot.side 0)).state = .calling ∧
    0 ∈ (calling.point (Slot.side 0)).nozzles ∧ 0 ∈ (callingAlone.point (Slot.side 0)).nozzles ∧
    (∀ k, k ≠ 0 → Slot.side k = Slot.side 0 → callingAlone.hose k = none) ∧
    ¬ (∀ k, k ≠ 0 → Slot.side k = Slot.side 0 → calling.hose k = none) := by decide +kernel

theorem witness_SetTotalsRebasesTheTotals : inRun.takes ∧ slotOf 7 = some 7 ∧
    (999999999999 : BitVec 64).toNat < 1000000000000 ∧ 1000000000000 ≤ (1000000000000 : BitVec 64).toNat ∧
    8 ≤ (8 : Byte).toNat := by decide +kernel

/-- Grade 0 at a new price: the change applies in RUN without a sale, and waits while sale 9 is on; a pending set at a deadline,
at a sale end with the other point idle or stopping it, and at a wake. -/
theorem witness_PriceChangeAppliesOrWaits :
    let z : PendingSet := ⟨#v[some 1500, none, none, none], .atIdle, 60, 1⟩
    let pend := fun (s : State) (m : PendingMode) => s.withPrices { s.prices with pending := some { z with mode := m }, deadlineDue := some 65000 }
    let ends := pend (serving .stopping flowed) .atIdle
    let busy := ends.setPoint .b { (ends.point .b) with state := .fuelling, sale := some { flowed with hose := 4 } }
    let rests := pend ((inPower .standby).withPower { (inPower .standby).power with table := [] }) .atWake
    priceEntriesOf ⟨1500, 0xFFFF, 0xFFFF, 0xFFFF, 1, 60⟩ = some #v[some 1500, none, none, none] ∧
    priceModeOf 0 = some none ∧ priceModeOf 1 = some (some .atIdle) ∧ inRun.takes ∧
    affectedGrades #v[some 1500, none, none, none] inRun.prices.active = 1 ∧ inRun.applyHolds 1 = true ∧
    (serving .fuelling flowed).takes ∧ (serving .fuelling flowed).applyHolds 1 = false ∧
    affectedGrades #v[some 1459, none, none, none] inRun.prices.active = 0 ∧ inRun.applyHolds 0 = true ∧
    priceEntriesOf ⟨0, 0xFFFF, 0xFFFF, 0xFFFF, 1, 60⟩ = none ∧ (pend inRun .atIdle).prices.deadlineDue = some 65000 ∧
    ends.prices.pending = some z ∧ (ends.point .a).settle = some ⟨6000, 1500⟩ ∧ (ends.point .a).sale.isSome = true ∧
    ends.power.state = .run ∧ ends.stops 1 .b = false ∧ busy.stops 1 .b = true ∧ busy.prices.pending = some z ∧
    rests.takes ∧ rests.power.state = .standby ∧ rests.holdsHalt .supply = false ∧ rests.power.table = [] ∧
    rests.prices.pending = some { z with mode := .atWake } := by decide +kernel

theorem witness_CancelPriceChangeDiscards :
    let s := inRun.withPrices { inRun.prices with pending := some ⟨#v[some 1500, none, none, none], .atIdle, 60, 1⟩,
                                                  deadlineDue := some 65000 }
    s.takes ∧ s.prices.pending = some ⟨#v[some 1500, none, none, none], .atIdle, 60, 1⟩ ∧ s.applyHolds 1 = true ∧
    s.testPending.takes ∧ s.prices.deadlineDue = some 65000 ∧ inRun.prices.pending = none := by decide +kernel

/-- The channel in each state that a card command meets. -/
theorem witness_CardCommandsAct : (inPower .standby).takes ∧ inRun.takes ∧ inRun.power.state = .run ∧
    inRun.waitsFor .readerReady = false ∧ (withReader .opened).card.state = .opened ∧ inRun.card.state = .off ∧
    (inRun.withPins { inRun.pins with tamperOpen := true }).pins.tamperOpen = true ∧ inRun.pins.tamperOpen = false ∧
    (holding .card .halt).holdsHalt .card = true ∧ inRun.holdsHalt .card = false ∧ inRun.card.restartPending = false ∧
    inRun.card.lastPowerOff + 2000 ≤ inRun.now ∧
    (inRun.withCard { inRun.card with lastPowerOff := 4000 }).now < 4000 + 2000 ∧
    (inRun.withCard { inRun.card with inbound := [⟨[7], .check⟩] }).card.inbound = ⟨[7], .check⟩ :: [] ∧
    (withReader .contained).card.state = .contained ∧ (withReader .contained).card.settings.reply = .empty ∧
    (inRun.withCard { inRun.card with state := .contained, settings := { CardSettings.default with reply := .refuse } }).card.settings.reply = .refuse ∧
    (withReader .opened).card.outboundCost + 250 + 2 ≤ 512 ∧
    512 < ((withReader .opened).withCard { (withReader .opened).card with
      outbound := [List.replicate 250 0, List.replicate 20 0] }).card.outboundCost + (List.replicate 250 (0 : Byte)).length + 2 ∧
    (Instr.cardSend 1 (List.replicate 250 0)).wf = true ∧
    ((serving .fuelling { flowed with link := .card }).withCard (withReader .opened).card).card.state = .opened := by
  decide +kernel

/-- The channel inside and outside a frame, in both modes, with room and with its ring full, at the limit of a frame's content,
before its end byte with a check code that disagrees, sending, and with a restart pending. -/
theorem witness_CardEventsAct :
    let rx := fun (m : CardMode) (x : Reception) (ring : List CardFrame) => (withReader .opened).withCard
      { (withReader .opened).card with reception := x, inbound := ring, settings := { CardSettings.default with mode := m } }
    let full : List CardFrame := List.replicate 8 ⟨[7], .ok⟩
    let laden : List CardFrame := List.replicate 4 ⟨List.replicate 250 0, .ok⟩ ++ [⟨List.replicate 12 0, .ok⟩]
    let framed := rx .framed (.inside [7] false false) []
    framed.waitsFor .readerReady = false ∧ framed.running = true ∧ inRun.card.state = .off ∧
    framed.card.state = .opened ∧ framed.card.settings.mode = .framed ∧ (withReader .opened).card.reception = .outside ∧
    (withReader .opened).card.inbound.length < 8 ∧ 8 ≤ (rx .framed .outside full).card.inbound.length ∧
    (rx .gap .discarding []).card.reception = .discarding ∧ (withReader .starting).card.state = .starting ∧
    framed.card.reception = .inside [7] false false ∧ [(7 : Byte)].length + 3 ≤ framed.card.inboundFree ∧
    (rx .gap (.inside [7] false false) []).card.settings.mode = .gap ∧
    (rx .framed (.inside [7] false false) laden).card.inboundFree < [(7 : Byte)].length + 3 ∧
    252 ≤ (List.replicate 252 (0 : Byte)).length ∧ framed.card.run < 2 ∧
    ([] ++ [(⟨[7], .check⟩ : CardFrame)]).length < 8 ∧ crcBytes [1] ≠ ([1, 2, 3] : List Byte).drop 1 ∧
    (framed.withCard { framed.card with outbound := [[1]], transmitting := some [1] }).card.transmitting = some [1] ∧
    (framed.withCard { framed.card with outbound := [[1]], txGapDue := some 5004 }).card.txGapDue = some 5004 ∧
    (inRun.withCard { inRun.card with restartPending := true }).card.restartPending = true := by decide +kernel

/-- A channel that starts, one in GAP mode that is open with a sale linked to it, one contained with a restart pending, and both
readings of the tamper input. -/
theorem witness_ContainmentStopsTheReader :
    let opened := (serving .fuelling { flowed with link := .card }).withCard { (withReader .opened).card with
      settings := { CardSettings.default with mode := .gap }, reception := .inside [7] false false }
    inRun.waitsFor .readerReady = false ∧ inRun.running = true ∧ inRun.watching = true ∧
    ((withReader .starting).withCard { (withReader .starting).card with readyDue := some 15000 }).card.readyDue = some 15000 ∧
    (withReader .starting).card.state = .starting ∧ inRun.pins.tamperOpen = false ∧
    opened.card.state = .opened ∧ opened.card.settings.mode = .gap ∧ opened.card.reception ≠ .outside ∧
    (opened.point .a).sale = some { flowed with link := .card } ∧
    ((withReader .contained).withCard { (withReader .contained).card with restartPending := true }).card.state = .contained ∧
    ((pointA { Point.afterRestore with state := .authorized, entry := some { anEntry with link := .card } }).point .a).entry =
      some { anEntry with link := .card } ∧
    (inRun.withPins { inRun.pins with tamperOpen := true }).pins.tamperOpen = true ∧
    (inPower .dark).watching = false := by decide +kernel

/-- R118: the end byte and the gap of a first good frame, with a held sale at point A and an entry with its nozzle up there; and
the third bad frame in succession. -/
theorem witness_FrameCloseMovesTheChannel :
    let linked := { aSale with link := .card }
    let held := pointA { (granted.point .a) with sale := some linked, testPassed := true, runUp := .expired }
    let waits := pointA { (calling.point .a) with state := .authorized, entry := some { anEntry with link := .card } }
    let rx := fun (s : State) (c : CardState) (m : CardMode) (b : List Byte) (run : Nat) => s.withCard { inRun.card with
      state := c, reception := .inside b false false, run := run, settings := { CardSettings.default with mode := m } }
    let b := [0x41] ++ crcBytes [0x41]
    (rx held .starting .framed b 0).waitsFor .readerReady = false ∧ (rx held .starting .framed b 0).running = true ∧
    (rx held .starting .framed b 0).card.reception = .inside b false false ∧ 3 ≤ b.length ∧ b.take (b.length - 2) = [0x41] ∧
    crcBytes [0x41] = b.drop (b.length - 2) ∧ (rx held .starting .framed b 0).card.state = .starting ∧
    (held.point .a).sale = some linked ∧ (held.point .a).state = .starting ∧ (held.point .a).testPassed = true ∧
    (held.point .a).runUp = .expired ∧ (rx waits .starting .gap [0x41] 0).card.settings.mode = .gap ∧
    (waits.point .a).entry = some { anEntry with link := .card } ∧ (waits.point .a).lifted = some 0 ∧
    waits.hose 0 = some ⟨0, 0, 5⟩ ∧ waits.prices.active.get 0 = some 1459 ∧ (waits.point .a).state = .authorized ∧
    maskHas anEntry.mask 0 = true ∧ (waits.totals 0).blocked = false ∧ waits.link.up = true ∧
    waits.totalsPending .a = false ∧ (waits.point .a).options.runUp ≠ 0 ∧
    (entered.point .a).state = .authorized ∧ (entered.point .a).entry.isSome = true ∧ (entered.point .a).nozzles = [] ∧
    (rx inRun .opened .framed [1, 2, 3] 2).card.run = 2 ∧ (rx inRun .opened .framed [1, 2, 3] 2).card.state = .opened ∧
    crcBytes [1] ≠ ([1, 2, 3] : List Byte).drop 1 := by decide +kernel

theorem witness_PowerCommandsAct :
    let s := (inPower .standby).withPower { (inPower .standby).power with table := [], wakeTime := some 21600 }
    s.takes ∧ s.power.state = .standby ∧ s.holdsHalt .supply = false ∧ s.prices.pending = none ∧ s.power.table = [] ∧
    (s.setCapture .supply ⟨some ⟨.supplyUnsteady, .halt, none, none⟩, 1, false⟩).holdsHalt .supply = true ∧
    (s.withPower { s.power with table := [⟨.heater .a, .delay, 5, .goOn⟩] }).power.table = ⟨.heater .a, .delay, 5, .goOn⟩ :: [] ∧
    (inPower .waking).takes ∧ (inPower .closing).takes ∧ inRun.noSale = true ∧ (serving .fuelling flowed).noSale = false ∧
    (serving .fuelling flowed).power.state = .run ∧ (inPower .restore).takes ∧ (inPower .restore).power.state = .restore ∧
    (86399 : BitVec 32).toNat < 86400 ∧ s.power.clockValid = true ∧ s.power.wakeTime = some 21600 ∧ s.power.clock ≠ 21600 ∧
    (inRun.withPower { inRun.power with sleepTime := some 79200 }).power.sleepTime = some 79200 ∧ inRun.power.clock ≠ 79200 := by
  decide +kernel

/-- A wait of each kind as the last step of the table, with the reader starting inside a frame; a delay with a HEAD_WARM and a
SUPPLY_STEADY step behind it; a head whose cold mark stands. -/
theorem witness_WakeWaitsEnd :
    let s := fun (w : WakeStep) (n : Nat) => ((inPower .waking).withPower { (inPower .waking).power with
      table := [w], stepIndex := 1, wait := some ⟨w.wait, 9000⟩, steadySince := some 4000, aborts := n }).withCard
        { (withReader .starting).card with readyDue := some 8000, reception := .inside [7] false false,
                                           settings := { CardSettings.default with mode := .gap } }
    let x : WakeStep := ⟨.heater .a, .delay, 4, .goOn⟩
    let y : WakeStep := ⟨.heater .a, .headWarm .a, 5, .goOn⟩
    let z : WakeStep := ⟨.motorSupply, .supplySteady, 5, .abort⟩
    let more := (s x 0).withPower { (s x 0).power with table := [x, y, z] }
    (∀ w ∈ ([x, ⟨.motorSupply, .supplySteady, 9, .goOn⟩, ⟨.heater .b, .headWarm .b, 9, .degrade⟩,
        ⟨.reader, .readerReady, 9, .degrade⟩, ⟨.reader, .readerReady, 9, .goOn⟩, ⟨.reader, .readerReady, 9, .abort⟩, z] : List WakeStep),
      (s w 0).power.table = [w] ∧ (s w 0).power.stepIndex = 1 ∧ (s w 0).power.state = .waking ∧
      (s w 0).power.wait = some ⟨w.wait, 9000⟩ ∧ (s w 0).power.steadySince = some 4000) ∧
    (s z 0).power.aborts = 0 ∧ (s z 1).power.aborts = 1 ∧ (s x 0).card.state = .starting ∧ (s x 0).takes ∧
    (s x 0).card.reception = .inside [7] false false ∧ (s x 0).card.settings.mode = .gap ∧
    (s x 0).card.readyDue = some 8000 ∧ (s x 0).pins.tamperOpen = false ∧ more.power.table = x :: y :: [z] ∧ y.time ≠ 0 ∧
    (more.head .a).warm = true ∧ ((more.setHead .a { more.head .a with warm := false }).head .a).warm = false ∧
    inRun.watching = true ∧ inRun.waitsFor (.headWarm .a) = false ∧
    ((inRun.setHead .a { inRun.head .a with coldMark := true }).head .a).coldMark = true := by decide +kernel

theorem witness_PulserTransitionCounts :
    let held := fun (n : Nat) => ((serving .fuelling { flowed with phaseErrors := n }).meter 0).holder
    (inPower .dark).running = false ∧ inRun.running = true ∧ (inRun.meter 0).reference = ⟨false, false⟩ ∧
    ((inRun.meter 0).reference, (⟨true, false⟩ : Phases)) ∈ [((⟨false, false⟩, ⟨true, false⟩) : Phases × Phases)] ∧
    (inRun.meter 0).holder = none ∧ held 0 = some .a ∧ held 7 = some .a ∧
    7 + 1 = ((serving .fuelling { flowed with phaseErrors := 7 }).meterSettings 0).phaseLimit ∧
    ((serving .fuelling { flowed with phaseErrors := 7 }).point .a).state = .fuelling := by decide +kernel

/-- Debts and volumes on both sides of a window volume, and the table of section 2.8 between two of its points. -/
theorem witness_WindowVolumeJoinsTheSale : flowed.v ≤ 9223372036854775807 ∧ flowed.d ≤ 9223372036854775807 ∧
    (100 : Int).natAbs ≤ ({ flowed with d := 100 }).d ∧ flowed.d < (100 : Int).natAbs ∧
    999999 < ({ flowed with v := 9999999999999999 }).v / 10000000 ∧ exampleTable.Pairwise (fun x y => x.q < y.q) ∧
    exampleTable[0]? = some ⟨50, 1002000⟩ ∧ exampleTable[0 + 1]? = some ⟨200, 998000⟩ ∧ (50 : Nat) ≤ 100 ∧ (100 : Nat) < 200 ∧
    (⟨400, 997500⟩ : TablePoint) ∈ exampleTable.getLast? := by decide +kernel

theorem witness_MoneyTargetIsTheSmallest : 1 ≤ 5000 ∧ 1 ≤ 1459 := by decide +kernel

/-- Sale 9 with a window of 30 steps: below the thresholds, at the slow-down threshold, at the target; and standing meters. -/
theorem witness_WindowEndCountsTheVolume :
    let s := serving .fuelling flowed
    let r' := ((flowed.addVolume (windowVolume (s.meterSettings 0).table (s.meter 0).count)).showVolume).showMoney
    s.running = true ∧ (∀ k, k ≠ 0 → s.quiet k) ∧ (s.meter 0).overrange = false ∧ (s.meter 0).holder = some .a ∧
    (s.point .a).sale = some flowed ∧ Slot.side flowed.hose = .a ∧ (s.point .a).state ≠ .starting ∧ 0 ≤ (s.meter 0).count ∧ volumeBinds r'.v = false ∧
    moneyBinds r'.displayed r'.unitPrice = false ∧ r'.displayed < r'.target ∧ r'.displayed < r'.slowdown ∧
    ({ r' with slowdown := 6 }).slowdown ≤ r'.displayed ∧ ({ r' with target := 6 }).target ≤ r'.displayed ∧
    ((serving .stopping flowed).point .a).settle = some ⟨6000, 1500⟩ ∧ (inRun.meter 0).holder = none ∧
    (∀ k, k ≠ 0 → inRun.quiet k) ∧ inRun.owner 0 = some .a ∧
    (inRun.meterSettings 0).flowLimit * 10000000 ≤ (50000000 : Int).natAbs := by decide +kernel

/-- The same meter in STARTING, overranged while held and while free, in reverse below and past its hose's tolerance, and in
STOPPING with a window at whose end both caps bind. -/
theorem witness_WindowEndCountsTheVolume_faults :
    let s := serving .starting flowed
    let count := fun (n : Int) (o : Bool) (x : State) => x.setMeter 0 { x.meter 0 with count := n, overrange := o }
    let back := count (-60) false (serving .fuelling flowed)
    let dv := windowVolume (back.meterSettings 0).table (-60)
    let big := { flowed with v := 9999990000000 , displayed := 999999 }
    let r' := ((big.addVolume (windowVolume (s.meterSettings 0).table 30)).showVolume).showMoney
    (s.point .a).state = .starting ∧ (∀ k, k ≠ 0 → s.quiet k) ∧ s.prices.pending = none ∧ (s.point .a).closing = false ∧
    s.holdsHalt (Side.domain .a) = false ∧ s.arbiter.requests = [] ∧
    ((count 30 true (serving .fuelling flowed)).meter 0).overrange = true ∧ ((count 30 true inRun).meter 0).holder = none ∧
    (back.meter 0).count < 0 ∧ dv < 0 ∧ back.hose flowed.hose = some ⟨0, 0, 5⟩ ∧
    (decide (5 * 10000000 < min 9223372036854775807 (flowed.d + dv.natAbs)) = true) ∧
    (decide (6 * 10000000 < min 9223372036854775807 (flowed.d + dv.natAbs)) = false) ∧
    volumeBinds r'.v = true ∧ volumeBinds big.v = false ∧
    ((serving .stopping big).point .a).settle = some ⟨6000, 1500⟩ := by decide +kernel

theorem witness_HeadRefreshChecksTheEcho : (State.reset.head .a).power = false ∧ (inRun.head .a).power = true ∧
    inRun.contentKind .a = .lastSale ∧ [] ≠ chain (inRun.imageOf .a .lastSale) ∧
    (inRun.setHead .a { inRun.head .a with mismatches := 2 }).running = true ∧ (inRun.point .a).state = .idle ∧
    granted.contentKind .a = .testOff ∧ (granted.point .a).sale = some aSale ∧ granted.arbiter.requests = [] ∧
    (granted.setHead .a { granted.head .a with test := .allOn 4700 }).contentKind .a = .testOn ∧
    ((granted.setHead .a { granted.head .a with test := .allOn 4700 }).head .a).test = .allOn 4700 := by decide +kernel

/-- Each content kind, each form of the last-sale and running figures, and each form of a price field: a grade with a price, one
without, one that no hose of the point carries. -/
theorem witness_HeadRefreshChecksTheEcho_content :
    let u : SaleRecord := { flowed with unverified := true }
    let bare := inRun.withPrices { inRun.prices with active := #v[none, some 1000, none, none] }
    let last := fun (x : LastSale) => (inRun.setHead .a { inRun.head .a with lastSale := x }).head .a
    ((inPower .waking).point .a).state = .closed ∧ (inRun.point .a).state = .idle ∧
    ((pointA { Point.afterRestore with state := .halted }).point .a).state = .halted ∧
    (requesting.point .a).state = .starting ∧ (requesting.head .a).test = .none ∧ (granted.head .a).test = .allOff 4700 ∧
    ((serving .fuelling flowed).point .a).sale = some flowed ∧ flowed.unverified = false ∧
    ((serving .fuelling u).point .a).sale = some u ∧ u.unverified = true ∧
    (last .none).lastSale = .none ∧ (last (.figures 999999 5 false)).lastSale = .figures 999999 5 false ∧
    (last (.figures 3 4 true)).lastSale = .figures 3 4 true ∧ (last .damaged).lastSale = .damaged ∧
    inRun.carries .a 0 = true ∧ inRun.prices.active.get 0 = some 1459 ∧ inRun.carries .a 2 = false ∧
    bare.carries .a 0 = true ∧ bare.prices.active.get 0 = none := by decide +kernel

/-- A write with another queued behind it, and the last three writes of a save. -/
theorem witness_WriteCompletionSealsTheRecord :
    let s := inRun.withStore { inRun.store with inFlight := some ⟨.power ⟨.run, false⟩, 5001, false⟩, queue := [.settings] }
    let saves := fun (x : SaveStage) (r : Bool) => (inPower .powerfail).withPower { (inPower .powerfail).power with
      save := some x, supply := .belowWarn, resetSeen := r }
    s.store.inFlight = some ⟨.power ⟨.run, false⟩, 5001, false⟩ ∧ s.power.state ≠ .powerfail ∧ s.power.state ≠ .restore ∧
    s.running = true ∧ (s.point .a).state ≠ .authorized ∧ (s.point .b).state ≠ .authorized ∧ s.store.queue = .settings :: [] ∧
    (saves .snapshotB false).power.state = .powerfail ∧ (saves .snapshotB false).power.save = some .snapshotB ∧
    (saves .power true).power.resetSeen = true ∧ (saves .power false).power.supply ≠ .aboveRestore ∧
    ((saves .draining false).withStore { s.store with dirty := ⟨true, true⟩ }).store.dirty.a = true := by decide +kernel

theorem witness_WarningStopsThePart : (serving .fuelling flowed).running = true ∧
    (serving .fuelling flowed).pins.resetAsserted = false ∧ (serving .fuelling flowed).saveOver = false ∧
    ((serving .fuelling flowed).point .a).sale = some flowed ∧ flowed.displayed ≠ 0 ∧
    flowed.displayed = min 999999 (flowed.v / 10000000) ∧ ((serving .fuelling flowed).point .b).sale = none ∧
    inRun.store.inFlight = none ∧ inRun.store.dirty = ⟨false, false⟩ ∧
    ((inPower .restore).withPower { (inPower .restore).power with restoreWaiting := true }).power.state = .restore ∧
    ((inPower .restore).withPower { (inPower .restore).power with restoreWaiting := true }).power.restoreWaiting = true ∧
    ((inPower .restore).withPower { (inPower .restore).power with restoreWaiting := true }).pins.resetAsserted = false := by
  decide +kernel

theorem witness_SupplyInputsAct : inRun.power.supply = .aboveRestore ∧ State.reset.power.supply ≠ .aboveRestore ∧
    State.reset.power.state = .dark ∧ inRun.power.state ≠ .dark ∧
    ((inPower .powerfail).withPower { (inPower .powerfail).power with fromWait := false }).power.resetSeen = false ∧
    ((inPower .waking).withPower { (inPower .waking).power with
      supply := .between, wait := some ⟨.supplySteady, 9000⟩ }).waitsFor .supplySteady = true ∧
    ((inPower .powerfail).withPower { (inPower .powerfail).power with supply := .belowWarn, save := some .complete }).saveOver =
      true ∧
    ((inPower .powerfail).withPower { (inPower .powerfail).power with
      supply := .belowWarn, save := some .complete, fromWait := true, cause := .reset }).saveOver = true := by decide +kernel

/-- A restore wait over with all records blank; with a price and a torn settings record; with a snapshot of sale 9 that its slot's
totals do not name; and the totals write of its settlement in flight. -/
theorem witness_RestoreLoadsTheRecords :
    let s := State.reset.withPower { State.reset.power with
      state := .restore, supply := .aboveRestore, restoreWaiting := true, aboveSince := some 0 }
    let read := fun (r : Records) => s.withStore { s.store with records := r }
    let mixed := (Records.blank.seal (.price ⟨inRun.prices.active, 4⟩)).tear (.settings .default)
    let cut := (Records.blank.seal (.snapshot .a (.power flowed))).seal (.totals 0 Totals.blank)
    let kept := (Records.blank.seal (.settings { Settings.default with policy := .resume, table := [⟨.heater .a, .delay, 5, .goOn⟩] })).seal
      (.power ⟨.run, true⟩)
    let settles := (s.withPower { s.power with restoreWaiting := false }).withStore
      { s.store with inFlight := some ⟨.totals 0 Totals.blank, 1, false⟩ }
    s.power.aboveSince = some 0 ∧ s.power.state = .restore ∧ s.power.restoreWaiting = true ∧ s.pins.resetAsserted = false ∧
    s.pins.tamperOpen = false ∧ (∀ p, s.store.records.findSnapshot p = .blank) ∧ s.store.records = Records.blank ∧
    s.power.cause = .dark ∧ s.power.clockKept = false ∧
    (read mixed).store.records.findPrice = .valid ⟨inRun.prices.active, 4⟩ ∧ (read mixed).store.records.findSettings = .damaged ∧
    (read cut).store.records.findSnapshot .a = .valid (.power flowed) ∧
    (read cut).store.records.findSnapshot (Side.other .a) = .blank ∧
    (read cut).store.records.findTotals flowed.hose = .valid Totals.blank ∧ flowed.displayed ≠ 0 ∧
    Totals.blank.last ≠ flowed.number ∧ kept.findPower = .valid ⟨.run, true⟩ ∧
    settles.store.inFlight = some ⟨.totals 0 Totals.blank, 1, false⟩ ∧ settles.power.state = .restore ∧
    settles.power.restoreWaiting = false ∧ (settles.point .a).state = .closed ∧ settles.store.queue = [] ∧
    settles.power.policy = .hold ∧
    (settles.withPower { settles.power with policy := .resume, loaded := .run, table := [⟨.heater .a, .delay, 5, .goOn⟩] }).power.table =
      ⟨.heater .a, .delay, 5, .goOn⟩ :: [] := by
  refine ⟨rfl, rfl, rfl, rfl, rfl, ?_, rfl, rfl, rfl, ?_⟩
  · intro p; cases p <;> decide +kernel
  · decide +kernel

end Sys2Proof.Tests
end

