-- ==== Sys2Proof/Proofs/MoneyTargets.lean ====
section
/-! The targets of a sale (R64 to R66). A displayed volume reaches a target exactly when it, or its money, reaches the amount the
target was computed from; the target of an opened sale is read off `targetOf`, one lemma for a sale with a preset target and one
for a sale without. -/

namespace Sys2Proof.Proofs

open Sys2Proof.Machine

/-! ### Rounding up -/

/-- R64: rounding up passes the exact quotient by less than one whole. -/
theorem ceilDiv_mul_lt {y : Nat} (x : Nat) (hy : 1 ≤ y) : ceilDiv x y * y < x + y := by
  have hmul : ceilDiv x y * y ≤ x + y - 1 := Nat.div_mul_le_self _ _
  omega

theorem ceilDiv_le_iff {y : Nat} (x c : Nat) (hy : 1 ≤ y) : ceilDiv x y ≤ c ↔ x ≤ c * y := by
  rw [ceilDiv, ← Nat.ceilDiv_eq_add_pred_div, ceilDiv_le_iff_le_mul hy, Nat.mul_comm]

/-! ### Money and its target -/

/-- R60, R64: rounded money reaches so many cents from half a cent below them on. -/
theorem le_rawMoney_iff {cents : Nat} (cl price : Nat) (hcents : 1 ≤ cents) :
    cents ≤ rawMoney cl price ↔ (2 * cents - 1) * 500 ≤ cl * price := by
  rw [rawMoney, Nat.le_div_iff_mul_le (by decide)]
  omega

/-- R64: the money target is the least displayed volume whose money reaches the preset. -/
theorem moneyTarget_le_iff {cents price : Nat} (cl : Nat) (hcents : 1 ≤ cents) (hprice : 1 ≤ price) :
    moneyTarget cents price ≤ cl ↔ cents ≤ rawMoney cl price := by
  rw [moneyTarget, ceilDiv_le_iff _ _ hprice, le_rawMoney_iff _ _ hcents]

/-- R65: the capacity target is the least displayed volume that reaches one of the two bounds. -/
theorem capacityTarget_le_iff {price : Nat} (cl : Nat) (hprice : 1 ≤ price) :
    capacityTarget price ≤ cl ↔ 999000 ≤ cl ∨ 999000 ≤ rawMoney cl price := by
  rw [capacityTarget, min_le_iff, moneyTarget_le_iff cl (by decide) hprice, Config.presetCap]

/-! ### The target of a sale -/

theorem targetOf_of_presetTarget_none {preset : Option Preset} {price : Nat} (hnone : presetTarget preset price = none) :
    targetOf preset price = (capacityTarget price, .capacity) := by
  simp [targetOf, hnone]

/-- R65: the smaller of the two targets, from the preset when they are equal. -/
theorem targetOf_of_presetTarget_some {preset : Option Preset} {price t : Nat} (hsome : presetTarget preset price = some t) :
    (targetOf preset price).1 = min t (capacityTarget price) ∧
      ((targetOf preset price).2 = .preset ↔ t ≤ capacityTarget price) := by
  by_cases hle : t ≤ capacityTarget price
  · simp [targetOf, hsome, hle]
  · simp [targetOf, hsome, hle, Nat.le_of_not_le hle]

/-- Settles O53, from the least-volume characterisations of the targets and the two cases of `targetOf`. -/
theorem moneyTargetIsTheSmallest : Obligations.MoneyTargetIsTheSmallest := by
  intro cents price cl hcents hprice
  refine ⟨ceilDiv_mul_lt _ hprice, moneyTarget_le_iff cl hcents hprice, capacityTarget_le_iff cl hprice, ?_⟩
  rintro p n h g gen e margin r rfl
  refine ⟨fun hvolume => ?_, fun hmoney => ?_, fun hnone => ?_, rfl⟩
  · exact targetOf_of_presetTarget_some (by rw [hvolume, presetTarget])
  · exact targetOf_of_presetTarget_some (by rw [hmoney, presetTarget])
  · exact Prod.ext_iff.mp (targetOf_of_presetTarget_none (by rw [hnone, presetTarget]))

end Sys2Proof.Proofs
end

