-- ==== Sys2Proof/Proofs/UnitPrices.lean ====
section
/-! PROOF. Commands that an owner only answers: the reads of the blocks (R90, R108, R130, R179, R191) and the refusals. -/

namespace Sys2Proof.Proofs.UnitPrices

open Sys2Proof.Machine

/-! ### Answers -/

/-- R184, R185: a command whose owner changes nothing and answers at once changes nothing but the outbound side of the link. -/
theorem answersOnly_of_judged {s : State} {i : Instr} {tag : Byte} {c : Command} {o : Owner} {x : Response} (htakes : s.takes)
    (hexec : exec i s = .next (s.command tag c o))
    (hjudge : o (s.judged (Command.kind c) tag) = (s.judged (Command.kind c) tag, x))
    (hx : ∀ r adjusted result, x ≠ .onWrite r adjusted result) :
    s.answersOnly i (replyFrame (Command.kind c) tag x) := by
  refine ⟨s.take (Command.kind c) tag o, by rw [hexec, s.command_of_takes tag c o htakes],
    s.take_replied _ tag o x (by rw [hjudge]) hx, s.take_touches _ tag o ?_⟩
  rw [hjudge]
  exact State.touches_refl _ _

/-- R185: the same for an answer DONE, as the claims write its frame. -/
theorem answersOnly_done {s : State} {i : Instr} {tag : Byte} {c : Command} {o : Owner} {result : List Byte} (htakes : s.takes)
    (hexec : exec i s = .next (s.command tag c o))
    (hjudge : o (s.judged (Command.kind c) tag) = (s.judged (Command.kind c) tag, .done false result)) :
    s.answersOnly i (doneFrame c tag false result) :=
  answersOnly_of_judged htakes hexec hjudge nofun

/-! ### Reads of the blocks -/

/-- R184: the command that reads the link holds one of the slots it counts. -/
theorem free_judged (s : State) (kind tag : Byte) : (s.judged kind tag).link.free = s.link.free - 1 := by
  simp only [State.judged, State.withLink_link, LinkPort.free, LinkPort.occupied, List.length_append, List.length_singleton]
  omega

/-- R192: no head has a code above 1. -/
theorem sideOf_eq_none {b : Byte} (h : 2 ≤ b.toNat) : sideOf b = none := by
  have h0 : b ≠ 0 := by rintro rfl; simp at h
  have h1 : b ≠ 1 := by rintro rfl; simp at h
  rw [sideOf, if_neg h0, if_neg h1]

/-- R191, R193: the identity spelled out. -/
theorem identity_eq (s : State) :
    s.identity = [0x21, 0x0A, 1, 6, 8, 2, if s.link.speed = .baud115200 then 1 else 0] := by
  cases hs : s.link.speed <;> simp [State.identity, le, LineSpeed.code, hs]

/-- R191: the link record at the judgement of a command, which stands in one of the free slots. -/
theorem linkContent_judged (s : State) (kind tag : Byte) : (s.judged kind tag).linkContent =
    flagByte (!s.link.up) :: byte s.link.timeout :: le 2 s.link.badCount ++ optByte (s.link.lastBad.map badCauseByte) ::
      le 2 s.link.overruns ++ [optByte s.link.lastOverrun, byte s.link.queue.length, byte (s.link.free - 1)] := by
  rw [State.linkContent, free_judged]
  rfl

/-- Settles O21: each owner answers with its record and returns the state it judged in. -/
theorem blockReadsAnswer : Obligations.BlockReadsAnswer := by
  intro s tag b htakes
  refine ⟨?_, fun _ => ?_, ?_, ?_, ?_, fun p hp => ?_, fun hb => ?_⟩
  · rw [← identity_eq s]
    exact answersOnly_done htakes rfl rfl
  · rw [← linkContent_judged s (Command.kind .readLink) tag]
    exact answersOnly_done htakes rfl rfl
  · exact answersOnly_done htakes rfl rfl
  · exact answersOnly_done htakes rfl rfl
  · exact answersOnly_of_judged (c := .readPower) (o := judgeReadPower) (x := .report s.powerReply s.powerUnplaced)
      htakes rfl rfl nofun
  · exact answersOnly_done (o := judgeReadHead b) htakes rfl (by rw [judgeReadHead, onPoint, hp]; rfl)
  · exact answersOnly_of_judged (c := .readHead b) (o := judgeReadHead b) (x := .refused .range) htakes rfl
      (by rw [judgeReadHead, onPoint, sideOf_eq_none hb]; rfl) nofun

/-! ### CANCEL PRICE CHANGE -/

/-- R87: without a pending set there is nothing to cancel. -/
theorem answersOnly_cancelPriceChange_of_none {s : State} (tag : Byte) (htakes : s.takes) (hnone : s.prices.pending = none) :
    s.answersOnly (.cancelPriceChange tag) (refusedFrame .cancelPriceChange tag .notFound) :=
  answersOnly_of_judged (c := .cancelPriceChange) (o := judgeCancelPriceChange) (x := .refused .notFound) htakes rfl
    (by rw [judgeCancelPriceChange, State.judged, State.withLink_prices, hnone]; rfl) nofun

/-- R91: an outcome recorded is the only change of the prices, and its PRICE notice is raised. -/
theorem priceOutcome_prices (s : State) (o : PriceOutcome) :
    (s.priceOutcome o).prices = { s.prices with lastOutcome := some ⟨o, s.prices.generation⟩ } :=
  (State.raise_touches _ _).1 .prices (by simp)

theorem priceOutcome_noted (s : State) (o : PriceOutcome) (hrun : s.running = true) : (s.priceOutcome o).noted .price :=
  State.raise_noted _ _ hrun

/-- R87: the cancelled price table. -/
def cancelled (t : PriceTable) : PriceTable :=
  { t with pending := none, deadlineDue := none, lastOutcome := some ⟨.cancelled, t.generation⟩ }

/-- R87: a pending set is discarded by its cancellation, which answers with its entries and mode. -/
theorem cancelPriceChange_of_some {s : State} (tag : Byte) {x : PendingSet} (htakes : s.takes)
    (hx : s.prices.pending = some x) :
    ∃ t, exec (.cancelPriceChange tag) s = .next t ∧ t.prices = cancelled s.prices ∧
      t.replied (doneFrame .cancelPriceChange tag false (priceSetBytes x.entries ++ [x.mode.code])) ∧
      t.noted .price ∧ s.touches t [.prices] := by
  set kind := Command.kind .cancelPriceChange
  have hjudge : judgeCancelPriceChange (s.judged kind tag) =
      (((s.judged kind tag).withPrices s.prices.dropPending).priceOutcome .cancelled,
        .done false (priceSetBytes x.entries ++ [x.mode.code])) := by
    rw [judgeCancelPriceChange, State.judged, State.withLink_prices, hx]
  have hanswer := State.answer_touches (((s.judged kind tag).withPrices s.prices.dropPending).priceOutcome .cancelled)
    kind tag (.done false (priceSetBytes x.entries ++ [x.mode.code]))
  refine ⟨s.take kind tag judgeCancelPriceChange, congrArg _ (s.command_of_takes tag _ _ htakes), ?_,
    s.take_replied kind tag judgeCancelPriceChange (.done false _) (by rw [hjudge]) nofun, ?_, s.take_touches kind tag _ ?_⟩
  · rw [State.take_eq, hjudge]
    exact (hanswer.1 .prices (by simp)).trans (priceOutcome_prices _ _)
  · rw [State.take_eq, hjudge]
    exact State.touches_noted hanswer (priceOutcome_noted _ _ htakes.1)
  · rw [hjudge]
    exact State.touches_trans (State.withPrices_touches _ _) (State.priceOutcome_touches _ _)

/-- R88, step 4: an apply leaves no pending set. -/
theorem applyPrices_pending (s : State) (entries : PriceSet) (affected : BitVec 4) :
    (s.applyPrices entries affected).prices.pending = none := by
  unfold State.applyPrices
  rw [priceOutcome_prices]
  rfl

/-- R85: at a sale end the pending AT_IDLE set is applied when no sale stops it, and is then pending no more. -/
theorem testPending_pending {s : State} {x : PendingSet} (hx : s.prices.pending = some x) (hmode : x.mode = .atIdle)
    (happly : s.applyHolds x.affected = true) : s.testPending.prices.pending = none := by
  simp only [State.testPending, hx, hmode, happly, and_self, if_true]
  exact applyPrices_pending _ _ _

/-- Settles O45: with a set CANCEL PRICE CHANGE discards it; after an apply or an expiry no set is pending. -/
theorem cancelPriceChangeDiscards : Obligations.CancelPriceChangeDiscards := by
  intro s tag htakes
  refine ⟨fun x hx => ?_, answersOnly_cancelPriceChange_of_none tag htakes, fun x hx hmode happly => ?_, fun due hdue => ?_⟩
  · obtain ⟨t, hexec, hprices, hreplied, hnoted, htouches⟩ := cancelPriceChange_of_some tag htakes hx
    exact ⟨t, hexec, by rw [hprices]; rfl, by rw [hprices]; rfl, by rw [hprices]; rfl, by rw [hprices]; rfl,
      by rw [hprices]; rfl, by rw [hprices]; rfl, t.testPending_of_none (by rw [hprices]; rfl), hreplied, hnoted, htouches⟩
  · have hnone := testPending_pending hx hmode happly
    exact ⟨hnone, fun h => answersOnly_cancelPriceChange_of_none tag h hnone⟩
  · refine ⟨((s.advanceTo due).withPrices (s.advanceTo due).prices.dropPending).priceOutcome .expired, ?_,
      priceOutcome_noted _ _ ((s.advanceTo_running due).trans htakes.1),
      fun h => answersOnly_cancelPriceChange_of_none tag h (by rw [priceOutcome_prices]; rfl)⟩
    simp only [exec, execDeadlineTimerExpiry, hdue]

end Sys2Proof.Proofs.UnitPrices
end

