-- ==== Sys2Proof/Proofs/RestoreItems.lean ====
section
/-! PROOF. What a restore loads, item by item. An item is a reading of one block of the part; `Keeps lost s t` says that every item
outside `lost` reads in `t` as it read in `s`. Each operation of the restore path and of the wake sequence is given the items that
it may change once, so that an item loaded by its check is followed to the end of the restore through one chain. -/

namespace Sys2Proof.Proofs.Restore

open Sys2Proof.Machine

/-! ### Items -/

/-- What the restore path loads, reads back or leaves alone. -/
inductive Item where
  | time
  | meters
  | metrology
  | prices
  /-- no sale, entry or stacked record comes into being -/
  | service (p : Side)
  | options (p : Side)
  | lastNumber (p : Side)
  | stagger
  | lastSale (p : Side)
  | cardSettings
  | cardState
  /-- a fault once present stays present, and HALT stays HALT -/
  | capture (d : Domain)
  | records
  | writes
  | totals (h : Slot)
  | snapshot (p : Side)
  | schedule
  | loaded
  | marks
  | cause
  | next
  | recovered
  | findings
  | clock
  | phase
  | line
  | notice (n : Subject)
  | timeout
  deriving DecidableEq

/-- The block that an item is read from. -/
def Item.block : Item → Block
  | .time => .now
  | .meters => .meters
  | .metrology => .metrology
  | .prices => .prices
  | .service _ | .options _ | .lastNumber _ => .points
  | .stagger => .arbiter
  | .lastSale _ => .heads
  | .cardSettings | .cardState => .card
  | .capture _ => .captures
  | .records | .writes | .totals _ | .snapshot _ => .store
  | .schedule | .loaded | .marks | .cause | .next | .recovered | .findings | .clock | .phase => .power
  | .line | .notice _ | .timeout => .link

/-- R133: the faults of a capture outlive later arrivals, and so does its HALT. -/
def Outlives (c d : Capture) : Prop :=
  (c.fault.isSome = true → d.fault.isSome = true) ∧
  ((c.fault.any fun f => decide (f.severity = .halt)) = true → (d.fault.any fun f => decide (f.severity = .halt)) = true)

/-- R172, R173, R166: the part of the settings that the power controller holds. -/
def schedule (x : PowerController) : Option Nat × Option Nat × Bool × List WakeStep × RestorePolicy :=
  (x.wakeTime, x.sleepTime, x.wakeOnLift, x.table, x.policy)

/-- R164, step 8: the clock and what the summary says of it. -/
def clock (x : PowerController) : Nat × Bool × Bool × Bool := (x.clock, x.clockValid, x.clockKept, x.summary.clockKept)

/-- An item reads alike in two states. -/
def Same (s t : State) : Item → Prop
  | .time => t.now = s.now
  | .meters => t.meters = s.meters
  | .metrology => t.metrology = s.metrology
  | .prices => (t.prices.active, t.prices.generation, t.prices.pending) =
      (s.prices.active, s.prices.generation, s.prices.pending)
  | .service p => (t.point p).sale = (s.point p).sale ∧ (t.point p).stack = (s.point p).stack ∧
      ((s.point p).entry = none → (t.point p).entry = none)
  | .options p => (t.point p).options = (s.point p).options
  | .lastNumber p => (t.point p).lastNumber = (s.point p).lastNumber
  | .stagger => t.arbiter.stagger = s.arbiter.stagger
  | .lastSale p => (t.head p).lastSale = (s.head p).lastSale
  | .cardSettings => t.card.settings = s.card.settings
  | .cardState => t.card.state = s.card.state
  | .capture d => Outlives (s.capture d) (t.capture d)
  | .records => t.store.records = s.store.records
  | .writes => (t.store.queue, t.store.inFlight) = (s.store.queue, s.store.inFlight)
  | .totals h => t.totals h = s.totals h
  | .snapshot p => t.store.snapshots.get p = s.store.snapshots.get p
  | .schedule => schedule t.power = schedule s.power
  | .loaded => t.power.loaded = s.power.loaded
  | .marks => (t.power.resetSeen, t.power.pendingPrice) = (s.power.resetSeen, s.power.pendingPrice)
  | .cause => t.power.summary.cause = s.power.summary.cause
  | .next => t.power.summary.next = s.power.summary.next
  | .recovered => t.power.summary.recovered = s.power.summary.recovered
  | .findings => t.power.summary.findings = s.power.summary.findings
  | .clock => clock t.power = clock s.power
  | .phase => (t.power.state, t.power.restoreWaiting) = (s.power.state, s.power.restoreWaiting)
  | .line => (t.link.speed, t.link.up, t.link.queue) = (s.link.speed, s.link.up, s.link.queue)
  | .notice n => s.noted n → t.noted n
  | .timeout => t.link.timeout = s.link.timeout

theorem same_refl (s : State) (i : Item) : Same s s i := by
  cases i with
  | service p => exact ⟨rfl, rfl, id⟩
  | capture d => exact ⟨id, id⟩
  | notice n => exact id
  | _ => rfl

theorem same_trans {s t u : State} {i : Item} (h : Same s t i) (k : Same t u i) : Same s u i := by
  cases i with
  | service p => exact ⟨k.1.trans h.1, k.2.1.trans h.2.1, k.2.2 ∘ h.2.2⟩
  | capture d => exact ⟨k.1 ∘ h.1, k.2 ∘ h.2⟩
  | notice n => exact k ∘ h
  | _ => exact Eq.trans k h

/-- An item reads alike where its block is the same. -/
theorem same_of_agrees {s t : State} {i : Item} (h : s.agrees t i.block) : Same s t i := by
  cases i with
  | service p | options p | lastNumber p =>
    have hp : t.point p = s.point p := congrArg (Sides.get · p) h
    simp [Same, hp]
  | lastSale p => exact congrArg (fun x => (Sides.get x p).lastSale) h
  | capture d =>
    have hd : t.capture d = s.capture d := congrArg (Captures.get · d) h
    simp [Same, Outlives, hd]
  | notice n => exact fun hn => by rw [State.noted, show t.link = s.link from h]; exact hn
  | totals k => exact congrArg (fun x => Vector.get x.totals k) h
  | snapshot p => exact congrArg (fun x => Sides.get x.snapshots p) h
  | stagger | cardSettings | cardState | records | writes => simp only [Same, show _ = _ from h]
  | prices | schedule | loaded | marks | cause | next | recovered | findings | clock | phase | line | timeout =>
    simp only [Same, show _ = _ from h]
  | time | meters | metrology => exact h

/-- Of the link port the outbound side alone changes. -/
theorem same_of_linkOutputs {s t : State} {i : Item} (hi : i.block = .link) (h : s.linkOutputs t) : Same s t i := by
  obtain ⟨hlink, _, _, hnoted⟩ := h
  cases i with
  | notice n => exact hnoted n
  | line | timeout => simp only [Same]; rw [hlink]
  | _ => cases hi

/-! ### Operations that keep items -/

/-- Every item outside `lost` reads alike. -/
def Keeps (lost : Set Item) (s t : State) : Prop := ∀ i, i ∉ lost → Same s t i

variable {lost more : Set Item} {s t u : State}

theorem Keeps.refl (s : State) : Keeps lost s s := fun i _ => same_refl s i

theorem Keeps.mono (h : Keeps lost s t) (sub : lost ⊆ more) : Keeps more s t := fun i hi => h i (fun hl => hi (sub hl))

theorem Keeps.trans (h : Keeps lost s t) (k : Keeps lost t u) : Keeps lost s u :=
  fun i hi => same_trans (h i hi) (k i hi)

/-- The same with the later operation first, from which the state in between is read off. -/
theorem Keeps.after (k : Keeps lost t u) (h : Keeps lost s t) : Keeps lost s u := h.trans k

theorem Keeps.noted {n : Subject} (h : Keeps lost s t) (hl : .notice n ∉ lost) (hn : s.noted n) : t.noted n :=
  h (.notice n) hl hn

/-- Two operations one after the other may change what either of them may. -/
theorem Keeps.union (h : Keeps lost s t) (k : Keeps more t u) : Keeps (lost ∪ more) s u :=
  (h.mono Set.subset_union_left).trans (k.mono Set.subset_union_right)

/-- An operation with a frame keeps every item that it keeps in the blocks it names. -/
theorem Keeps.of_touches {parts : List Block} (h : s.touches t parts) 
    (hp : ∀ i, i.block ∈ parts → i ∉ lost → Same s t i) : Keeps lost s t := by
  intro i hi
  by_cases hb : i.block ∈ parts
  · exact hp i hb hi
  · by_cases hlink : i.block = .link
    · exact same_of_linkOutputs hlink h.2
    · exact same_of_agrees (h.1 _ (by simp [hb, hlink]))

/-- An operation that changes the outbound side of the link alone keeps every item. -/
theorem Keeps.of_touches_nil (h : s.touches t []) : Keeps lost s t := .of_touches h (by simp)

theorem keeps_raise (s : State) (n : Subject) : Keeps lost s (s.raise n) := .of_touches_nil (s.raise_touches n)

/-! ### Faults -/

theorem outlives_arrive (c : Capture) (f : FaultRecord) : Outlives c (c.arrive f) := by
  refine ⟨fun _ => c.arrive_isSome f, fun hhalt => ?_⟩
  cases hc : c.fault with
  | none => simp [hc] at hhalt
  | some old =>
    have hold : old.severity = .halt := by simpa [hc] using hhalt
    have hkept : ¬ old.severity.code.toNat < f.severity.code.toNat := by
      rw [hold]; cases f.severity <;> decide
    have harrive : c.arrive f = { c with token := c.token + 1, more := true } := by simp [Capture.arrive, hc, hkept]
    simp [harrive, hc, hold]

/-- R133: an arrival keeps every item, the captures' faults among them. -/
theorem keeps_arrive (s : State) (d : Domain) (f : FaultRecord) : Keeps lost s (s.arrive d f) := by
  refine .of_touches (s.arrive_touches d f) fun i hi _ => ?_
  cases i with
  | capture e =>
    show Outlives (s.capture e) ((s.arrive d f).captures.get e)
    rw [s.arrive_captures]
    by_cases he : e = d
    · rw [he, Captures.get_set_self]; exact outlives_arrive _ _
    · rw [Captures.get_set_of_ne _ he]; exact ⟨id, id⟩
  | _ => simp [Item.block] at hi

/-! ### Entry to STANDBY and the wake sequence -/

/-- What a step of the wake sequence may change. -/
def Stepping : Set Item := {.cardState}

/-- What the entry to STANDBY and the wake sequence as a whole may change. -/
def Running : Set Item := {.phase, .records, .writes, .cardState}

theorem stepping_subset_running : Stepping ⊆ Running := by simp [Stepping, Running]

theorem writing_subset_running : {.records, .writes} ⊆ Running := by simp [Running, Set.subset_def]

/-- The items of the power controller that the entry to STANDBY and the wake sequence keep. -/
def kept (x : PowerController) :
    (Option Nat × Option Nat × Bool × List WakeStep × RestorePolicy) × PowerState × Bool × Bool × Summary × Nat × Bool × Bool :=
  (schedule x, x.loaded, x.resetSeen, x.pendingPrice, x.summary, x.clock, x.clockValid, x.clockKept)

theorem keeps_withPower {x : PowerController} (h : kept x = kept s.power)
    (hphase : (x.state, x.restoreWaiting) = (s.power.state, s.power.restoreWaiting) ∨ .phase ∈ lost) :
    Keeps lost s (s.withPower x) := by
  simp only [kept, Prod.mk.injEq] at h
  obtain ⟨hschedule, hloaded, hreset, hpending, hsummary, hclock, hvalid, hkept⟩ := h
  refine .of_touches (s.withPower_touches x) fun i hi hl => ?_
  cases i with
  | schedule => exact hschedule
  | phase => exact hphase.resolve_right hl
  | loaded | marks | cause | next | recovered | findings | clock => simp [Same, clock, *]
  | _ => simp [Item.block] at hi

/-- A point that begins no sale, gets no entry and stacks nothing keeps its items. -/
theorem keeps_setPoint {p : Side} {x : Point} (hsale : x.sale = (s.point p).sale) (hstack : x.stack = (s.point p).stack)
    (hentry : (s.point p).entry = none → x.entry = none) (hoptions : x.options = (s.point p).options)
    (hnumber : x.lastNumber = (s.point p).lastNumber) : Keeps lost s (s.setPoint p x) := by
  refine .of_touches (s.setPoint_touches p x) fun i hi _ => ?_
  cases i with
  | service q | options q | lastNumber q =>
    by_cases hq : q = p
    · subst hq; simp only [Same, State.point_setPoint_self]; tauto
    · simp [Same, State.point_setPoint_of_ne s hq]
  | _ => simp [Item.block] at hi

/-- A head that shows the same last sale keeps its item. -/
theorem keeps_setHead {p : Side} {x : Head} (h : x.lastSale = (s.head p).lastSale) : Keeps lost s (s.setHead p x) := by
  refine .of_touches (s.setHead_touches p x) fun i hi _ => ?_
  cases i with
  | lastSale q =>
    by_cases hq : q = p
    · subst hq; simpa [Same] using h
    · simp [Same, State.head_setHead_of_ne s hq]
  | _ => simp [Item.block] at hi

theorem keeps_withCard {x : CardChannel} (h : x.settings = s.card.settings) : Keeps Stepping s (s.withCard x) := by
  refine .of_touches (s.withCard_touches x) fun i hi hl => ?_
  cases i with
  | cardSettings => exact h
  | cardState => exact absurd (by simp [Stepping]) hl
  | _ => simp [Item.block] at hi

theorem keeps_queueRecord (s : State) (r : RecordId) : Keeps {.records, .writes} s (s.queueRecord r) := by
  obtain ⟨htotals, hsnapshots, _⟩ := s.queueRecord_store r
  refine .of_touches (s.queueRecord_touches r) fun i hi hl => ?_
  cases i with
  | totals h => exact congrArg (Vector.get · h) htotals
  | snapshot p => exact congrArg (Sides.get · p) hsnapshots
  | records | writes => exact absurd (by simp) hl
  | _ => simp [Item.block] at hi

theorem keeps_headsOff (s : State) : Keeps lost s s.headsOff := by
  refine .of_touches s.headsOff_touches fun i hi _ => ?_
  cases i with
  | lastSale p => cases p <;> rfl
  | _ => simp [Item.block] at hi

/-! #### Points -/

theorem keeps_void (s : State) (p : Side) (cause : VoidCause) : Keeps lost s (s.void p cause) := by
  unfold State.void
  dsimp only
  split
  · exact .refl s
  · exact (keeps_raise _ _).after (keeps_setPoint rfl rfl (fun _ => rfl) rfl rfl)

theorem keeps_suspendPoint (s : State) (p : Side) : Keeps lost s (s.suspendPoint p) := by
  unfold State.suspendPoint
  split
  · exact (keeps_raise _ _).after (keeps_setPoint rfl rfl id rfl rfl)
  · exact (keeps_raise _ _).after (keeps_setPoint rfl rfl id rfl rfl)
  · exact .refl s

theorem keeps_cardLostAt (s : State) (p : Side) : Keeps lost s (s.cardLostAt p) := by
  unfold State.cardLostAt
  dsimp only
  split
  · split
    · exact keeps_void s p _
    · exact .refl s
  · split
    · exact keeps_suspendPoint s p
    · exact .refl s
  · split
    · exact keeps_suspendPoint s p
    · exact .refl s
  · exact .refl s

theorem keeps_signalLoss (s : State) (left : CardState) : Keeps lost s (s.signalLoss left) := by
  unfold State.signalLoss
  split
  · exact (keeps_cardLostAt s .a).trans (keeps_cardLostAt _ .b)
  · exact .refl s

theorem keeps_leaveService (s : State) (p : Side) (cause : VoidCause) (next : PointState) :
    Keeps lost s (s.leaveService p cause next) := by
  have hpoint : ((s.point p).unentered cause).sale = (s.point p).sale ∧
      ((s.point p).unentered cause).stack = (s.point p).stack ∧ ((s.point p).unentered cause).entry = none ∧
      ((s.point p).unentered cause).options = (s.point p).options ∧
      ((s.point p).unentered cause).lastNumber = (s.point p).lastNumber := by
    unfold Point.unentered
    split
    · exact ⟨rfl, rfl, by assumption, rfl, rfl⟩
    · exact ⟨rfl, rfl, rfl, rfl, rfl⟩
  obtain ⟨hsale, hstack, hentry, hoptions, hnumber⟩ := hpoint
  exact (keeps_raise _ _).after (keeps_setPoint hsale hstack (fun _ => hentry) hoptions hnumber)

theorem keeps_closeForStandby (s : State) (p : Side) : Keeps lost s (s.closeForStandby p) := by
  unfold State.closeForStandby
  split
  · exact .refl s
  · exact keeps_leaveService s p _ _

theorem keeps_openStep (s : State) (p : Side) : Keeps lost s (s.openStep p) := by
  unfold State.openStep
  split
  · exact (keeps_raise _ _).after (keeps_setPoint rfl rfl id rfl rfl)
  · exact .refl s

/-! #### Card channel -/

theorem keeps_stopCard (s : State) : Keeps Stepping s s.stopCard := by
  unfold State.stopCard
  split
  · exact keeps_withCard rfl
  · exact (keeps_signalLoss _ _).after ((keeps_raise _ _).after (keeps_withCard rfl))

theorem abortReception_settings (c : CardChannel) : c.abortReception.settings = c.settings := by
  unfold CardChannel.abortReception CardChannel.place
  split
  · split <;> rfl
  · rfl

theorem keeps_contain (s : State) : Keeps Stepping s s.contain := by
  unfold State.contain
  split
  · exact keeps_withCard rfl
  · exact (keeps_signalLoss _ _).after ((keeps_raise _ _).after (keeps_withCard (abortReception_settings _)))

theorem keeps_tamperEvent (s : State) : Keeps Stepping s s.tamperEvent :=
  (keeps_raise _ _).after ((keeps_withCard rfl).after ((keeps_contain _).after (keeps_arrive s _ _)))

theorem keeps_acceptRestart (s : State) : Keeps Stepping s s.acceptRestart := by
  unfold State.acceptRestart
  split
  · exact (keeps_raise _ _).after (keeps_withCard rfl)
  · exact keeps_withCard rfl

theorem keeps_tryRestart (s : State) : Keeps Stepping s s.tryRestart.1 := by
  unfold State.tryRestart
  split
  · exact keeps_tamperEvent s
  · split
    · exact .refl s
    · split
      · exact .refl s
      · exact keeps_acceptRestart s

theorem keeps_readerStep (s : State) : Keeps Stepping s s.readerStep := by
  unfold State.readerStep
  split
  · exact keeps_tryRestart s
  · split
    · exact keeps_tamperEvent s
    · exact .refl s
  · exact .refl s
  · exact .refl s

/-! #### Power states -/

theorem keeps_enterStandby (s : State) : Keeps Running s s.enterStandby :=
  ((keeps_stopCard _).mono stepping_subset_running).after <| (keeps_headsOff _).after <| (keeps_closeForStandby _ _).after <|
    (keeps_closeForStandby _ _).after <| (keeps_raise _ _).after <|
    ((keeps_queueRecord _ _).mono writing_subset_running).after <| keeps_withPower rfl (.inr (by simp [Running]))

theorem keeps_headOn (s : State) (p : Side) : Keeps lost s (s.headOn p) := by
  unfold State.headOn
  dsimp only
  split
  · exact .refl s
  · exact keeps_setHead rfl

theorem keeps_heaterOn (s : State) (p : Side) : Keeps lost s (s.heaterOn p) := keeps_setHead rfl

theorem keeps_enterRun (s : State) : Keeps Running s s.enterRun :=
  (keeps_raise _ _).after <| ((keeps_queueRecord _ _).mono writing_subset_running).after <|
    (keeps_heaterOn _ _).after <| (keeps_heaterOn _ _).after <| (keeps_headOn _ _).after <| (keeps_headOn _ _).after <|
    keeps_withPower rfl (.inr (by simp [Running]))

/-! #### Steps -/

theorem keeps_takeAction (s : State) (a : WakeAction) : Keeps Stepping s (s.takeAction a) := by
  cases a with
  | heater p => exact keeps_heaterOn s p
  | head p => exact keeps_headOn s p
  | reader => exact keeps_readerStep s
  | motorSupply => exact keeps_withPower rfl (.inl rfl)
  | openPoint p => exact keeps_openStep s p

theorem keeps_beginStep (s : State) (n : Nat) (w : WakeStep) : Keeps Stepping s (s.beginStep n w) := by
  have haction : Keeps Stepping s ((s.withPower { s.power with stepIndex := n }).takeAction w.action) :=
    (keeps_takeAction _ _).after (keeps_withPower rfl (.inl rfl))
  unfold State.beginStep
  dsimp only
  split
  · exact (keeps_raise _ _).after ((keeps_withPower rfl (.inl rfl)).after haction)
  · exact (keeps_raise _ _).after haction

theorem keeps_endWait (s : State) : Keeps Stepping s s.endWait := (keeps_raise _ _).after (keeps_withPower rfl (.inl rfl))

theorem keeps_supplyFault (s : State) (code : FaultCode) (sev : Severity) (origin : Option Origin) :
    Keeps lost s (s.supplyFault code sev origin) := keeps_arrive s _ _

theorem keeps_markCold (s : State) (p : Side) : Keeps lost s (s.markCold p) := by
  unfold State.markCold
  dsimp only
  split
  · exact .refl s
  · exact (keeps_raise _ _).after (keeps_setHead rfl)

theorem keeps_degradeWake (s : State) (n : Nat) (w : WakeStep) : Keeps lost s (s.degradeWake n w) := by
  unfold State.degradeWake
  dsimp only
  split
  · exact (keeps_supplyFault s _ _ _).trans (keeps_markCold _ _)
  · exact keeps_supplyFault s _ _ _

theorem keeps_countAbort (s : State) (n : Nat) : Keeps lost s (s.countAbort n) := by
  unfold State.countAbort
  dsimp only
  split
  · exact (keeps_supplyFault _ _ _ _).after (keeps_withPower rfl (.inl rfl))
  · exact keeps_withPower rfl (.inl rfl)

theorem keeps_abortWake (s : State) (n : Nat) (w : WakeStep) : Keeps Running s (s.abortWake n w) := by
  unfold State.abortWake
  dsimp only
  split
  · exact ((keeps_supplyFault s _ _ _).trans (keeps_countAbort _ _)).trans (keeps_enterStandby _)
  · exact (keeps_supplyFault s _ _ _).trans (keeps_enterStandby _)

/-- R174: the wake sequence, however far it runs in one event, keeps what the restore loaded. -/
theorem keeps_runSteps (steps : List WakeStep) : ∀ (s : State) (n : Nat), Keeps Running s (s.runSteps n steps) := by
  induction steps with
  | nil => exact fun s _ => keeps_enterRun s
  | cons w rest ih =>
    intro s n
    have hbegin := (keeps_beginStep s n w).mono stepping_subset_running
    have hend := hbegin.trans ((keeps_endWait _).mono stepping_subset_running)
    unfold State.runSteps
    dsimp only
    split
    · exact hbegin
    · exact hend.trans (ih _ _)
    · split
      · exact (hend.trans (keeps_supplyFault _ _ _ _)).trans (ih _ _)
      · exact (hend.trans (keeps_degradeWake _ _ _)).trans (ih _ _)
      · exact hend.trans (keeps_abortWake _ _ _)

end Sys2Proof.Proofs.Restore
end

