-- ==== Sys2Proof/Proofs/RestoreChecks.lean ====
section
/-! PROOF. The checks of a restore (R164): which item each loads from its record (R58, R78, R98, R145, R149, R152), and that it
keeps every other item. -/

namespace Sys2Proof.Proofs.Restore

open Sys2Proof.Machine

/-! ### The checks in their order -/

/-- R164: the checks by their numbers; the nozzle lists are read behind the metrology record. -/
def check : Nat → State → State
  | 1, s => s.checkCause
  | 2, s => (s.checkMetrology.readNozzles .a).readNozzles .b
  | 3, s => s.checkSettings
  | 4, s => s.checkPrices
  | 5, s => Slot.all.foldl State.checkTotals s
  | 6, s => (s.checkSnapshot .a).checkSnapshot .b
  | 7, s => s.checkPower
  | 8, s => s.checkClock
  | _, s => s

/-- The state after so many checks. -/
def checked : Nat → State → State
  | 0, s => s
  | n + 1, s => check (n + 1) (checked n s)

theorem checkRecords_eq (s : State) : s.checkRecords = checked 8 s := rfl

/-- The number of the check that loads an item; 0 for an item that none loads, 9 for the list of findings, which any may extend. -/
def Item.check : Item → Nat
  | .metrology => 2
  | .options _ | .stagger | .cardSettings | .timeout | .schedule => 3
  | .prices => 4
  | .totals _ => 5
  | .snapshot _ | .lastSale _ | .lastNumber _ => 6
  | .loaded => 7
  | .clock => 8
  | .findings => 9
  | _ => 0

/-- What a check may change: the items it loads, and the findings. -/
def Loads (n : Nat) : Set Item := {i | i.check = n ∨ i = .findings}

theorem findings_subset_loads (n : Nat) : {.findings} ⊆ Loads n := by simp [Loads]

variable {lost : Set Item} {s t : State}

/-! ### Each check keeps what it does not load -/

theorem keeps_find (s : State) (d : Domain) (code : FaultCode) (sev : Severity) (origin : Option Origin) :
    Keeps {.findings} s (s.find d code sev origin) := by
  refine (keeps_arrive s d ⟨code, sev, origin, none⟩).trans (.of_touches (State.withPower_touches _ _) fun i hi hl => ?_)
  cases i with
  | findings => exact absurd rfl hl
  | schedule | loaded | marks | cause | next | recovered | clock | phase => rfl
  | _ => simp [Item.block] at hi

theorem keeps_find_loads (n : Nat) (s : State) (d : Domain) (code : FaultCode) (sev : Severity) (origin : Option Origin) :
    Keeps (Loads n) s (s.find d code sev origin) := (keeps_find s d code sev origin).mono (findings_subset_loads n)

theorem keeps_checkCause (s : State) : Keeps (Loads 1) s s.checkCause := by
  unfold State.checkCause
  split
  · exact keeps_find_loads _ _ _ _ _ _
  · exact .refl s

theorem keeps_withMetrology (s : State) (x : Metrology) : Keeps (Loads 2) s (s.withMetrology x) :=
  .of_touches (State.touches_of_changesOnly (s.withMetrology_changesOnly x) (by simp)) fun i hi hl => by
    cases i with
    | metrology => exact absurd (by simp [Loads, Item.check]) hl
    | _ => simp [Item.block] at hi

theorem keeps_checkMetrology (s : State) : Keeps (Loads 2) s s.checkMetrology := by
  unfold State.checkMetrology
  split
  · exact keeps_withMetrology s _
  · exact keeps_withMetrology s _
  · exact ((keeps_withMetrology s _).trans (keeps_find_loads _ _ _ _ _ _)).trans (keeps_find_loads _ _ _ _ _ _)

theorem keeps_readNozzles (s : State) (p : Side) : Keeps lost s (s.readNozzles p) := keeps_setPoint rfl rfl id rfl rfl

theorem keeps_install (s : State) (x : Settings) : Keeps (Loads 3) s (s.install x) := by
  intro i hl
  cases i with
  | options _ | stagger | cardSettings | timeout | schedule => exact absurd (by simp [Loads, Item.check]) hl
  | service p => cases p <;> exact ⟨rfl, rfl, id⟩
  | lastNumber p => cases p <;> rfl
  | capture d => exact ⟨id, id⟩
  | notice n => exact id
  | _ => rfl

theorem keeps_checkSettings (s : State) : Keeps (Loads 3) s s.checkSettings := by
  unfold State.checkSettings
  split
  · exact keeps_install s _
  · exact keeps_install s _
  · exact (keeps_install s _).trans (keeps_find_loads _ _ _ _ _ _)

theorem keeps_withPrices {x : PriceTable} (h : (x.active, x.generation, x.pending) =
    (s.prices.active, s.prices.generation, s.prices.pending) ∨ .prices ∈ lost) : Keeps lost s (s.withPrices x) :=
  .of_touches (s.withPrices_touches x) fun i hi hl => by
    cases i with
    | prices => exact h.resolve_right hl
    | _ => simp [Item.block] at hi

theorem keeps_checkPrices (s : State) : Keeps (Loads 4) s s.checkPrices := by
  have hprices : Item.prices ∈ Loads 4 := .inl rfl
  unfold State.checkPrices
  split
  · exact keeps_withPrices (.inr hprices)
  · exact keeps_withPrices (.inr hprices)
  · exact (keeps_find_loads _ _ _ _ _ _).after (keeps_withPrices (.inr hprices))

theorem keeps_setTotals (s : State) (h : Slot) (x : Totals) : Keeps {.totals h} s (s.setTotals h x) := by
  refine .of_touches (s.setTotals_touches h x) fun i hi hl => ?_
  cases i with
  | totals k => exact State.totals_setTotals_of_ne s (by simpa using hl) x
  | records | writes | snapshot => rfl
  | _ => simp [Item.block] at hi

theorem keeps_checkTotals (s : State) (h : Slot) : Keeps {.totals h, .findings} s (s.checkTotals h) := by
  have hset (x : Totals) : Keeps {.totals h, .findings} s (s.setTotals h x) := (keeps_setTotals s h x).mono (by simp)
  unfold State.checkTotals
  split
  · exact hset _
  · exact hset _
  · exact (hset _).trans ((keeps_find _ _ _ _ _).mono (by simp))

theorem keeps_foldl_checkTotals (slots : List Slot) : ∀ s : State, Keeps (Loads 5) s (slots.foldl State.checkTotals s) := by
  induction slots with
  | nil => exact Keeps.refl
  | cons h rest ih =>
    exact fun s => ((keeps_checkTotals s h).mono (by simp [Set.subset_def, Loads, Item.check])).trans (ih _)

theorem keeps_loadSnapshot (s : State) (p : Side) (x : Snapshot) :
    Keeps {.snapshot p, .lastSale p, .lastNumber p} s (s.loadSnapshot p x) := by
  intro i hl
  cases i with
  | snapshot q | lastSale q | lastNumber q => cases p <;> cases q <;> simp at hl <;> rfl
  | service q => cases p <;> cases q <;> exact ⟨rfl, rfl, id⟩
  | options q => cases p <;> cases q <;> rfl
  | capture d => exact ⟨id, id⟩
  | notice n => exact id
  | _ => rfl

theorem keeps_checkSnapshot (s : State) (p : Side) :
    Keeps {.snapshot p, .lastSale p, .lastNumber p, .findings} s (s.checkSnapshot p) := by
  have hload (x : Snapshot) : Keeps {.snapshot p, .lastSale p, .lastNumber p, .findings} s (s.loadSnapshot p x) :=
    (keeps_loadSnapshot s p x).mono (by simp [Set.subset_def])
  unfold State.checkSnapshot
  split
  · exact hload _
  · exact hload _
  · exact (hload _).trans ((keeps_find _ _ _ _ _).mono (by simp))

theorem keeps_checkSnapshot_loads (s : State) (p : Side) : Keeps (Loads 6) s (s.checkSnapshot p) :=
  (keeps_checkSnapshot s p).mono (by simp [Set.subset_def, Loads, Item.check])

theorem keeps_loadField (s : State) (x : PowerState) : Keeps (Loads 7) s (s.loadField x) := by
  refine .of_touches (s.withPower_touches _) fun i hi hl => ?_
  cases i with
  | loaded => exact absurd (.inl rfl) hl
  | schedule | marks | cause | next | recovered | findings | clock | phase => rfl
  | _ => simp [Item.block] at hi

theorem keeps_checkPower (s : State) : Keeps (Loads 7) s s.checkPower := by
  unfold State.checkPower
  split
  · split
    · exact keeps_loadField s _
    · exact (keeps_loadField s _).trans (keeps_find_loads _ _ _ _ _ _)
  · exact keeps_loadField s _
  · exact (keeps_loadField s _).trans (keeps_find_loads _ _ _ _ _ _)

/-- R164, step 8: the kept mark moves into the summary and is set again. -/
def markKept (wasKept : Bool) (s : State) : State :=
  s.withPower { s.power with clockKept := true,
                             summary := { s.power.summary with clockKept := wasKept, clockValid := s.power.clockValid } }

/-- R164, step 8: a clock that was not kept begins again, not valid. -/
def clearClock (s : State) : State :=
  s.withPower { s.power with clock := 0, clockMs := 0, clockEntered := false, clockValid := false }

theorem checkClock_of_kept (h : s.power.clockKept = true) : s.checkClock = markKept true s := by
  simp [State.checkClock, markKept, h]

theorem checkClock_of_not_kept (h : s.power.clockKept = false) :
    s.checkClock = markKept false ((clearClock s).find .supply .clockLost .note none) := by
  simp [State.checkClock, markKept, clearClock, h]

/-- R164, step 8: a change of the clock and of what the summary says of it. -/
theorem keeps_withClock {x : PowerController}
    (h : kept { x with clock := s.power.clock, clockValid := s.power.clockValid, clockKept := s.power.clockKept,
                       summary := s.power.summary } = kept s.power)
    (hsummary : (x.summary.cause, x.summary.next, x.summary.recovered, x.summary.findings) =
      (s.power.summary.cause, s.power.summary.next, s.power.summary.recovered, s.power.summary.findings))
    (hphase : (x.state, x.restoreWaiting) = (s.power.state, s.power.restoreWaiting)) : Keeps (Loads 8) s (s.withPower x) := by
  simp only [kept, schedule, Prod.mk.injEq] at h hsummary
  refine .of_touches (s.withPower_touches _) fun i hi hl => ?_
  cases i with
  | clock => exact absurd (.inl rfl) hl
  | phase => exact hphase
  | schedule | loaded | marks | cause | next | recovered | findings => simp [Same, schedule, *]
  | _ => simp [Item.block] at hi

theorem keeps_checkClock (s : State) : Keeps (Loads 8) s s.checkClock := by
  have hmark (b : Bool) (t : State) : Keeps (Loads 8) t (markKept b t) := keeps_withClock rfl rfl rfl
  have hclear : Keeps (Loads 8) s (clearClock s) := keeps_withClock rfl rfl rfl
  cases h : s.power.clockKept with
  | true => rw [checkClock_of_kept h]; exact hmark _ _
  | false => rw [checkClock_of_not_kept h]; exact (hclear.trans (keeps_find_loads _ _ _ _ _ _)).trans (hmark _ _)

theorem keeps_check (n : Nat) (s : State) : Keeps (Loads n) s (check n s) := by
  unfold check
  split
  · exact keeps_checkCause _
  · exact (keeps_readNozzles _ _).after ((keeps_readNozzles _ _).after (keeps_checkMetrology _))
  · exact keeps_checkSettings _
  · exact keeps_checkPrices _
  · exact keeps_foldl_checkTotals _ _
  · exact (keeps_checkSnapshot_loads _ _).trans (keeps_checkSnapshot_loads _ _)
  · exact keeps_checkPower _
  · exact keeps_checkClock _
  · exact .refl _

/-- R164: an item that is loaded by then reads after further checks as it did. -/
theorem same_checked (s : State) {m n : Nat} {i : Item} (hi : i.check ≤ m) (hm : m ≤ 8) (hn : m ≤ n) :
    Same (checked m s) (checked n s) i := by
  induction n, hn using Nat.le_induction with
  | base => exact same_refl _ _
  | succ n hn ih =>
    refine same_trans ih (keeps_check (n + 1) _ i ?_)
    rintro (hload | rfl)
    · omega
    · simp [Item.check] at hi; omega

theorem same_checkRecords (s : State) {m : Nat} {i : Item} (hi : i.check ≤ m) (hm : m ≤ 8) :
    Same (checked m s) s.checkRecords i := by
  rw [checkRecords_eq]
  exact same_checked s hi hm hm

/-- R164: an item reads as before until the check that loads it. -/
theorem same_unchecked (s : State) {m : Nat} {i : Item} (hi : i.check = 0 ∨ m < i.check) (hf : i ≠ .findings) :
    Same s (checked m s) i := by
  induction m with
  | zero => exact same_refl _ _
  | succ n ih =>
    refine same_trans (ih (by omega)) (keeps_check (n + 1) _ i ?_)
    rintro (hload | hfinding)
    · omega
    · exact hf hfinding

/-- R145: the checks read the records and do not change them. -/
theorem records_checked (s : State) {m : Nat} : (checked m s).store.records = s.store.records :=
  same_unchecked s (i := .records) (.inl rfl) (by simp)

/-! ### What each check loads -/

theorem find_captures (s : State) (d : Domain) (code : FaultCode) (sev : Severity) (origin : Option Origin) :
    (s.find d code sev origin).captures = s.captures.set d ((s.capture d).arrive ⟨code, sev, origin, none⟩) :=
  s.arrive_captures d _

/-- R58, R152: the metrology that a record gives. -/
def loadedMetrology : Found MetrologyData → Metrology
  | .valid c => ⟨c, false⟩
  | .blank => ⟨.blank, false⟩
  | .damaged => ⟨.blank, true⟩

theorem checkMetrology_metrology (s : State) :
    s.checkMetrology.metrology = loadedMetrology s.store.records.findMetrology := by
  unfold State.checkMetrology
  split
  · simp [loadedMetrology, *]
  · simp [loadedMetrology, *]
  · simp only [loadedMetrology, *]
    exact (keeps_find_loads 3 _ _ _ _ _ .metrology (by simp [Loads, Item.check])).trans
      (keeps_find_loads 3 _ _ _ _ _ .metrology (by simp [Loads, Item.check]))

theorem checkRecords_metrology (s : State) :
    s.checkRecords.metrology = loadedMetrology s.store.records.findMetrology :=
  (same_checkRecords s (m := 2) (i := .metrology) (by simp [Item.check]) (by omega)).trans
    ((checkMetrology_metrology (checked 1 s)).trans (by rw [records_checked]))

/-- R133: an arrival of HALT severity leaves the capture holding HALT. -/
theorem arrive_holdsHalt (s : State) (d : Domain) {f : FaultRecord} (hf : f.severity = .halt) :
    (s.arrive d f).holdsHalt d = true := by
  have hcapture : (s.arrive d f).capture d = (s.capture d).arrive f := by
    rw [State.capture, s.arrive_captures, Captures.get_set_self]
  rw [State.holdsHalt, hcapture]
  cases hc : (s.capture d).fault with
  | none => simp [Capture.arrive, hc, hf]
  | some old =>
    cases hold : old.severity <;> simp [Capture.arrive, hc, hold, hf, Severity.code]

theorem find_holdsHalt (s : State) (d : Domain) (code : FaultCode) (origin : Option Origin) :
    (s.find d code .halt origin).holdsHalt d = true := arrive_holdsHalt s d rfl

/-- R58: a damaged metrology record leaves HALT at both points. -/
theorem checkRecords_holdsHalt (s : State) (p : Side) (h : s.store.records.findMetrology = .damaged) :
    s.checkRecords.holdsHalt (Side.domain p) = true := by
  have hfound : (checked 1 s).store.records.findMetrology = .damaged := by rw [records_checked, h]
  have hchecked : (checked 1 s).checkMetrology.holdsHalt (Side.domain p) = true := by
    simp only [State.checkMetrology, hfound]
    cases p with
    | a => exact (keeps_find _ .pointB _ _ _ (.capture .pointA) (by simp)).2 (find_holdsHalt _ _ _ _)
    | b => exact find_holdsHalt _ _ _ _
  exact (same_checkRecords s (m := 2) (i := .capture (Side.domain p)) (by simp [Item.check]) (by omega)).2 hchecked

/-- R152: the settings that a record gives. -/
def loadedSettings : Found Settings → Settings
  | .valid c => c
  | .blank | .damaged => .default

/-- The settings in force are the items of the third check. -/
theorem settings_eq (h : ∀ i : Item, i.check = 3 → Same s t i) : t.settings = s.settings := by
  have hschedule : schedule t.power = schedule s.power := h .schedule rfl
  simp only [schedule, Prod.mk.injEq] at hschedule
  have ha : t.points.a.options = s.points.a.options := h (.options .a) rfl
  have hb : t.points.b.options = s.points.b.options := h (.options .b) rfl
  have hstagger : t.arbiter.stagger = s.arbiter.stagger := h .stagger rfl
  have htimeout : t.link.timeout = s.link.timeout := h .timeout rfl
  have hcard : t.card.settings = s.card.settings := h .cardSettings rfl
  simp [State.settings, *]

/-- The policy and the wake table are two of the settings. -/
theorem choice_of_settings {c : Settings} (h : s.settings = c) : s.power.policy = c.policy ∧ s.power.table = c.table := by
  subst h
  exact ⟨rfl, rfl⟩

theorem checkSettings_settings (s : State) :
    s.checkSettings.settings = loadedSettings s.store.records.findSettings := by
  unfold State.checkSettings
  split
  · simp only [loadedSettings, *]; rfl
  · simp only [loadedSettings, *]; rfl
  · simp only [loadedSettings, *]
    exact settings_eq (s := s.install .default) fun i hi => keeps_find _ _ _ _ _ i (by rintro rfl; cases hi)

theorem checkRecords_settings (s : State) : s.checkRecords.settings = loadedSettings s.store.records.findSettings :=
  (settings_eq fun i hi => same_checkRecords s (m := 3) (by omega) (by omega)).trans
    ((checkSettings_settings (checked 2 s)).trans (by rw [records_checked]))

/-- R78: the active set and the generation that a record gives. -/
def loadedPrices : Found PriceContent → PriceContent
  | .valid c => c
  | .blank | .damaged => ⟨PriceSet.unset, 0⟩

theorem checkPrices_prices (s : State) : (s.checkPrices.prices.active, s.checkPrices.prices.generation,
      s.checkPrices.prices.pending) =
    ((loadedPrices s.store.records.findPrice).active, (loadedPrices s.store.records.findPrice).generation,
      s.prices.pending) := by
  unfold State.checkPrices
  split
  · simp only [loadedPrices, *]; rfl
  · simp only [loadedPrices, *]; rfl
  · simp only [loadedPrices, *]
    exact keeps_find _ _ _ _ _ .prices (by simp)

theorem checkRecords_prices (s : State) : (s.checkRecords.prices.active, s.checkRecords.prices.generation,
      s.checkRecords.prices.pending) =
    ((loadedPrices s.store.records.findPrice).active, (loadedPrices s.store.records.findPrice).generation,
      s.prices.pending) := by
  have hloaded := checkPrices_prices (checked 3 s)
  have hbefore : Same s (checked 3 s) .prices := same_unchecked s (by simp [Item.check]) (by simp)
  rw [records_checked, (Prod.mk.inj (Prod.mk.inj hbefore).2).2] at hloaded
  exact (same_checkRecords s (m := 4) (i := .prices) (by simp [Item.check]) (by omega)).trans hloaded

/-- R149, R152: the totals that a record gives. -/
def loadedTotals : Found Totals → Totals
  | .valid c => c
  | .blank => .blank
  | .damaged => { Totals.blank with blocked := true }

theorem checkTotals_totals (s : State) (h : Slot) :
    (s.checkTotals h).totals h = loadedTotals (s.store.records.findTotals h) := by
  unfold State.checkTotals
  split
  · simp [loadedTotals, *]
  · simp [loadedTotals, *]
  · simp only [loadedTotals, *]
    exact (keeps_find _ _ _ _ _ (.totals h) (by simp)).trans (by simp)

theorem foldl_checkTotals_totals {slots : List Slot} {h : Slot} (hmem : h ∈ slots) : ∀ s : State,
    (slots.foldl State.checkTotals s).totals h = loadedTotals (s.store.records.findTotals h) := by
  have hrecords (s : State) (k : Slot) : (s.checkTotals k).store.records = s.store.records :=
    keeps_checkTotals s k .records (by simp)
  induction slots using List.reverseRecOn with
  | nil => simp at hmem
  | append_singleton rest k ih =>
    intro s
    have hfold : (rest.foldl State.checkTotals s).store.records = s.store.records :=
      keeps_foldl_checkTotals rest s .records (by simp [Loads, Item.check])
    rw [List.foldl_append, List.foldl_cons, List.foldl_nil]
    by_cases hk : h = k
    · rw [hk, checkTotals_totals, hfold]
    · exact (keeps_checkTotals _ k (.totals h) (by simp [hk])).trans (ih (by simpa [hk] using hmem) s)

theorem checkRecords_totals (s : State) (h : Slot) :
    s.checkRecords.totals h = loadedTotals (s.store.records.findTotals h) :=
  (same_checkRecords s (m := 5) (i := .totals h) (by simp [Item.check]) (by omega)).trans
    ((foldl_checkTotals_totals (by revert h; decide) (checked 4 s)).trans (by rw [records_checked]))

/-- R152: the working snapshot that a record gives. -/
def loadedSnapshot : Found Snapshot → Snapshot
  | .valid x => x
  | .blank => .none
  | .damaged => .damaged

/-- R1, R98, R152: what the snapshot of a point has given: the working snapshot, the last-sale figures of its head, the number of
the sale it holds, and a fault when it is damaged. -/
def SnapshotLoaded (t : State) (p : Side) (x : Snapshot) (damaged : Prop) : Prop :=
  t.store.snapshots.get p = x ∧ (t.head p).lastSale = x.lastSale ∧
  (∀ r, x.sale? = some r → (t.point p).lastNumber = r.number) ∧
  (damaged → (t.capture (Side.domain p)).fault.isSome = true)

theorem SnapshotLoaded.of_keeps {p : Side} {x : Snapshot} {damaged : Prop} (h : SnapshotLoaded s p x damaged)
    (k : Keeps lost s t) (hl : ∀ i ∈ [.snapshot p, .lastSale p, .lastNumber p, Item.capture (Side.domain p)], i ∉ lost) :
    SnapshotLoaded t p x damaged := by
  obtain ⟨hx, hlast, hlastNumber, hfault⟩ := h
  have hsnapshot : t.store.snapshots.get p = s.store.snapshots.get p := k (.snapshot p) (hl _ (by simp))
  have hsale : (t.head p).lastSale = (s.head p).lastSale := k (.lastSale p) (hl _ (by simp))
  have hnumber : (t.point p).lastNumber = (s.point p).lastNumber := k (.lastNumber p) (hl _ (by simp))
  have hcapture : Outlives (s.capture (Side.domain p)) (t.capture (Side.domain p)) := k (.capture _) (hl _ (by simp))
  exact ⟨hsnapshot.trans hx, hsale.trans hlast, fun r hr => hnumber.trans (hlastNumber r hr),
    fun hd => hcapture.1 (hfault hd)⟩

theorem loadSnapshot_loaded (s : State) (p : Side) (x : Snapshot) : SnapshotLoaded (s.loadSnapshot p x) p x False := by
  refine ⟨?_, ?_, fun r hr => ?_, False.elim⟩
  · cases p <;> rfl
  · cases p <;> rfl
  · have hnumber : ((s.loadSnapshot p x).point p).lastNumber = s.restoredNumber p x := by cases p <;> rfl
    rw [hnumber, State.restoredNumber, hr]

theorem checkSnapshot_loaded (s : State) (p : Side) :
    SnapshotLoaded (s.checkSnapshot p) p (loadedSnapshot (s.store.records.findSnapshot p))
      (s.store.records.findSnapshot p = .damaged) := by
  unfold State.checkSnapshot
  split
  · obtain ⟨hx, hlast, hnumber, _⟩ := loadSnapshot_loaded s p _
    simp only [loadedSnapshot, *]
    exact ⟨hx, hlast, hnumber, nofun⟩
  · obtain ⟨hx, hlast, hnumber, _⟩ := loadSnapshot_loaded s p .none
    simp only [loadedSnapshot, *]
    exact ⟨hx, hlast, hnumber, nofun⟩
  · have hfind := keeps_find (s.loadSnapshot p .damaged) (Side.domain p) .snapshotLost .fault none
    obtain ⟨hx, hlast, hnumber, _⟩ := (loadSnapshot_loaded s p .damaged).of_keeps hfind (by simp)
    simp only [loadedSnapshot, *]
    refine ⟨hx, hlast, hnumber, fun _ => ?_⟩
    rw [State.capture, find_captures, Captures.get_set_self]
    exact Capture.arrive_isSome _ _

theorem checkRecords_snapshot (s : State) (p : Side) :
    SnapshotLoaded s.checkRecords p (loadedSnapshot (s.store.records.findSnapshot p))
      (s.store.records.findSnapshot p = .damaged) := by
  have hchecked : SnapshotLoaded (checked 6 s) p (loadedSnapshot (s.store.records.findSnapshot p))
      (s.store.records.findSnapshot p = .damaged) := by
    have hchain : checked 6 s = ((checked 5 s).checkSnapshot .a).checkSnapshot .b := rfl
    rw [← records_checked s (m := 5), hchain]
    cases p with
    | a =>
      exact (checkSnapshot_loaded (checked 5 s) .a).of_keeps (keeps_checkSnapshot ((checked 5 s).checkSnapshot .a) .b) (by simp)
    | b =>
      have hrecords : ((checked 5 s).checkSnapshot .a).store.records = (checked 5 s).store.records :=
        keeps_checkSnapshot _ .a .records (by simp)
      rw [← hrecords]
      exact checkSnapshot_loaded _ .b
  have hkeeps : Keeps {i | 6 < i.check} (checked 6 s) s.checkRecords :=
    fun i hi => same_checkRecords s (Nat.le_of_not_lt hi) (by omega)
  exact hchecked.of_keeps hkeeps (by simp [Item.check])

theorem checkPower_of_saved {f : PowerState} (h : s.store.records.findPower = .valid ⟨f, true⟩) :
    s.checkPower = s.loadField f := by
  simp [State.checkPower, h]

/-- R164, step 7: a saved power record gives its field. -/
theorem checkRecords_loaded (s : State) {f : PowerState} (h : s.store.records.findPower = .valid ⟨f, true⟩) :
    s.checkRecords.power.loaded = f := by
  have hfound : (checked 6 s).store.records.findPower = .valid ⟨f, true⟩ := by rw [records_checked, h]
  have hchain : checked 7 s = (checked 6 s).checkPower := rfl
  have hkept : s.checkRecords.power.loaded = (checked 7 s).power.loaded :=
    same_checkRecords s (m := 7) (i := .loaded) (by simp [Item.check]) (by omega)
  rw [hkept, hchain, checkPower_of_saved hfound]
  rfl

/-- R164, step 8: the kept mark moves into the summary and is set again. -/
theorem checkClock_clockKept (s : State) :
    s.checkClock.power.summary.clockKept = s.power.clockKept ∧ s.checkClock.power.clockKept = true := by
  by_cases h : s.power.clockKept = true
  · rw [checkClock_of_kept h, h]; exact ⟨rfl, rfl⟩
  · rw [Bool.not_eq_true] at h
    rw [checkClock_of_not_kept h, h]; exact ⟨rfl, rfl⟩

/-- R164, step 8: a clock that was not kept is 0 and not valid. -/
theorem checkClock_clock {s : State} (h : s.power.clockKept = false) :
    s.checkClock.power.clockValid = false ∧ s.checkClock.power.clock = 0 := by
  have hclock : clock ((clearClock s).find .supply .clockLost .note none).power = clock (clearClock s).power :=
    keeps_find (clearClock s) .supply .clockLost .note none .clock (by simp)
  simp only [clock, Prod.mk.injEq] at hclock
  obtain ⟨hzero, hvalid, _⟩ := hclock
  rw [checkClock_of_not_kept h]
  exact ⟨hvalid, hzero⟩

end Sys2Proof.Proofs.Restore
end

