-- ==== Sys2Proof/Proofs/RestoreEnd.lean ====
section
/-! PROOF. The end of a restore: settlement of a snapshot's sale (R150, R153), the summary (R165), and the choice of the next power
state once the write queue has drained (R166). -/

namespace Sys2Proof.Proofs.Restore

open Sys2Proof.Machine

variable {lost : Set Item} {s t : State}

/-! ### Settlement -/

/-- R146: no write waits and none is in flight. -/
def Idle (s : State) : Prop := (s.store.queue, s.store.inFlight) = ([], none)

/-- R163: the part is in RESTORE with its volatile state reset. -/
def Restoring (s : State) : Prop := (s.power.state, s.power.restoreWaiting) = (.restore, false)

theorem Restoring.running (h : Restoring s) : s.running = true := by
  simp only [Restoring, Prod.mk.injEq] at h
  obtain ⟨hstate, hwaiting⟩ := h
  simp [State.running, hstate, hwaiting]

/-- R146: on an idle store the write of a queued record begins at once. -/
theorem queueRecord_of_idle (h : Idle s) (r : RecordId) :
    ((s.queueRecord r).store.queue, (s.queueRecord r).store.inFlight) =
      ([], some ⟨s.content r, s.now + r.writeTime, false⟩) := by
  simp only [Idle, Prod.mk.injEq] at h
  obtain ⟨hqueue, hnone⟩ := h
  simp only [State.queueRecord, State.beginNext, State.withStore_store, hqueue, hnone, List.not_mem_nil, if_false,
    List.nil_append]
  cases r <;> rfl

/-- R153: only ENDED and POWER snapshots are settled. -/
theorem settleSnapshot_of_no_sale {p : Side} (h : (s.store.snapshots.get p).sale? = none) : s.settleSnapshot p = s := by
  simp [State.settleSnapshot, State.unsettled, h]

/-- R150, R153: a sale of 0 cL, and one that its slot's totals name, is not settled again. -/
theorem settleSnapshot_of_settled {p : Side} {r : SaleRecord} (hsale : (s.store.snapshots.get p).sale? = some r)
    (h : r.displayed = 0 ∨ (s.totals r.hose).last = r.number) : s.settleSnapshot p = s := by
  rcases h with h | h <;> simp [State.settleSnapshot, State.unsettled, Totals.settles, hsale, h]

theorem unsettled_of_new {p : Side} {r : SaleRecord} (hsale : (s.store.snapshots.get p).sale? = some r)
    (hvolume : r.displayed ≠ 0) (hnew : (s.totals r.hose).last ≠ r.number) : s.unsettled p = true := by
  simp [State.unsettled, Totals.settles, hsale, hvolume, hnew.symm]

/-- R150: a sale that its slot's totals do not name is added to them. -/
theorem settle_of_new {r : SaleRecord} (hnew : (s.totals r.hose).last ≠ r.number) :
    s.settle r = (s.setTotals r.hose ((s.totals r.hose).add r)).queueRecord (.totals r.hose) := by
  simp [State.settle, Totals.settles, hnew.symm]

theorem keeps_settle {r : SaleRecord} (hnew : (s.totals r.hose).last ≠ r.number) :
    Keeps {.totals r.hose, .records, .writes} s (s.settle r) := by
  rw [settle_of_new hnew]
  exact ((keeps_setTotals s _ _).mono (by simp)).trans ((keeps_queueRecord _ _).mono (by simp))

theorem settle_totals {r : SaleRecord} (hnew : (s.totals r.hose).last ≠ r.number) :
    (s.settle r).totals r.hose = (s.totals r.hose).add r := by
  rw [settle_of_new hnew]
  exact (keeps_queueRecord _ _ (.totals r.hose) (by simp)).trans (by simp)

/-- R150: the totals are written at once when the store is idle. -/
theorem settle_writes {r : SaleRecord} (hidle : Idle s) (hnew : (s.totals r.hose).last ≠ r.number) :
    ((s.settle r).store.queue, (s.settle r).store.inFlight) =
      ([], some ⟨.totals r.hose ((s.totals r.hose).add r), s.now + 1, false⟩) := by
  have hset : Idle (s.setTotals r.hose ((s.totals r.hose).add r)) := hidle
  rw [settle_of_new hnew, queueRecord_of_idle hset, State.content, State.totals_setTotals_self]
  rfl

/-- R153: a point with a recovered sale pushed onto its stack. -/
def recover (x : Point) (r : SaleRecord) : Point := { x with stack := x.stack ++ [{ r with recovered := true }] }

/-- R165: a recovered sale joins the summary. -/
def listRecovered (s : State) (x : Recovered) : State :=
  s.withPower { s.power with summary := { s.power.summary with recovered := s.power.summary.recovered ++ [x] } }

theorem pushRecovered_eq (s : State) (p : Side) (r : SaleRecord) :
    s.pushRecovered p r = listRecovered ((s.setPoint p (recover (s.point p) r)).raise (.sale p)) ⟨p, r.number⟩ := by
  have hpower : ((s.setPoint p (recover (s.point p) r)).raise (.sale p)).power = s.power :=
    (State.raise_touches _ _).1 .power (by simp)
  rw [listRecovered, hpower]
  rfl

theorem keeps_listRecovered (s : State) (x : Recovered) : Keeps {.recovered} s (listRecovered s x) := by
  refine .of_touches (s.withPower_touches _) fun i hi hl => ?_
  cases i with
  | recovered => simp at hl
  | schedule | loaded | marks | cause | next | findings | clock | phase => rfl
  | _ => simp [Item.block] at hi

theorem keeps_recover (s : State) (p : Side) (r : SaleRecord) :
    Keeps {.service p} s (s.setPoint p (recover (s.point p) r)) := by
  refine .of_touches (s.setPoint_touches p _) fun i hi hl => ?_
  cases i with
  | service q =>
    rw [Same, State.point_setPoint_of_ne s (by simpa using hl)]
    exact ⟨rfl, rfl, id⟩
  | options q | lastNumber q => cases p <;> cases q <;> rfl
  | _ => simp [Item.block] at hi

/-- R153: what the push of a recovered sale changes. -/
theorem keeps_pushRecovered (s : State) (p : Side) (r : SaleRecord) :
    Keeps {.service p, .recovered} s (s.pushRecovered p r) := by
  rw [pushRecovered_eq]
  exact (((keeps_recover s p r).mono (by simp)).trans (keeps_raise _ _)).trans ((keeps_listRecovered _ _).mono (by simp))

/-- R153: the record is pushed with the recovered mark, listed in the summary, and notified. -/
theorem pushRecovered_pushed (s : State) (p : Side) (r : SaleRecord) (hrun : s.running = true) :
    ((s.pushRecovered p r).point p).stack = (s.point p).stack ++ [{ r with recovered := true }] ∧
    (s.pushRecovered p r).power.summary.recovered = s.power.summary.recovered ++ [⟨p, r.number⟩] ∧
    (s.pushRecovered p r).noted (.sale p) := by
  have hraise := (s.setPoint p (recover (s.point p) r)).raise_touches (.sale p)
  have hpoints : (s.pushRecovered p r).points = (s.setPoint p (recover (s.point p) r)).points := hraise.1 .points (by simp)
  have hpower : ((s.setPoint p (recover (s.point p) r)).raise (.sale p)).power = s.power := hraise.1 .power (by simp)
  refine ⟨?_, ?_, State.raise_noted _ (.sale p) hrun⟩
  · rw [State.point, hpoints]
    exact congrArg Point.stack (s.point_setPoint_self p _)
  · rw [pushRecovered_eq, listRecovered, hpower]
    rfl

/-! ### Summary -/

/-- R165: the summary is completed with what it says of the pending set, which no item reads. -/
theorem keeps_summarize (s : State) : Keeps lost s s.summarize := by
  have hpower : Keeps lost s (s.withPower { s.power with
      summary := { s.power.summary with pendingSet := s.power.pendingFound } }) :=
    .of_touches (s.withPower_touches _) fun i hi _ => by
      cases i with
      | schedule | loaded | marks | cause | next | recovered | findings | clock | phase => rfl
      | _ => simp [Item.block] at hi
  unfold State.summarize
  dsimp only
  split
  · exact (keeps_raise _ _).after ((keeps_raise _ _).after ((keeps_withPrices (.inl rfl)).after hpower))
  · exact (keeps_raise _ _).after ((keeps_raise _ _).after hpower)

theorem summarize_restoring (h : Restoring s) : Restoring s.summarize :=
  Eq.trans (keeps_summarize (lost := ∅) s .phase (by simp)) h

theorem summarize_idle (h : Idle s) : Idle s.summarize := Eq.trans (keeps_summarize (lost := ∅) s .writes (by simp)) h

theorem summarize_pending (s : State) : s.summarize.prices.pending = s.prices.pending := by
  have hprices : Same s s.summarize .prices := keeps_summarize (lost := ∅) s .prices (by simp)
  exact (Prod.mk.inj (Prod.mk.inj hprices).2).2

/-- R165: the POWER and the PRICE notice are sent. -/
theorem summarize_noted (h : Restoring s) : s.summarize.noted .power ∧ s.summarize.noted .price := by
  unfold State.summarize
  dsimp only
  set v := if s.power.pendingFound = .discarded then _ else _ with hv
  have hrun : v.running = true := by
    rw [hv]
    split <;> exact h.running
  exact ⟨State.touches_noted (State.raise_touches _ _) (v.raise_noted .power hrun),
    State.raise_noted _ .price ((v.raise_running .power).trans hrun)⟩

theorem summarize_captures (s : State) : s.summarize.captures = s.captures := by
  unfold State.summarize
  dsimp only
  split
  · exact (State.touches_trans (State.raise_touches _ _) (State.raise_touches _ _)).1 .captures (by simp)
  · exact (State.touches_trans (State.raise_touches _ _) (State.raise_touches _ _)).1 .captures (by simp)

/-! ### Entry to STANDBY -/

/-- R167: the power controller at the entry to STANDBY. -/
def standbyPower (x : PowerController) : PowerController :=
  { x with state := .standby, motorDrive := false, stepIndex := 0, wait := none, steadySince := none, field := .standby }

/-- R167: the power controller's part of the entry, before the other blocks'. -/
def standbyBegun (s : State) : State := ((s.withPower (standbyPower s.power)).queueRecord .power).notePower

theorem enterStandby_eq (s : State) :
    s.enterStandby = (((standbyBegun s).closeForStandby .a).closeForStandby .b).headsOff.stopCard := rfl

/-- R167: the other blocks leave the power controller's part alone. -/
theorem standbyBegun_touches (s : State) : (standbyBegun s).touches s.enterStandby [.points, .heads, .card] := by
  rw [enterStandby_eq]
  exact State.touches_trans
    (State.touches_mono (State.touches_trans (State.closeForStandby_touches _ _) (State.closeForStandby_touches _ _)) (by simp))
    (State.touches_trans_of (State.headsOff_touches _) (State.stopCard_touches _) (by simp) (by simp))

theorem enterStandby_power (s : State) : s.enterStandby.power = standbyPower s.power := by
  have hbegun : (standbyBegun s).power = standbyPower s.power :=
    (State.touches_trans (State.queueRecord_touches (s.withPower (standbyPower s.power)) .power)
      (State.touches_mono (State.raise_touches _ _) (by simp))).1 .power (by simp)
  exact ((standbyBegun_touches s).1 .power (by simp)).trans hbegun

theorem enterStandby_noted (s : State) : s.enterStandby.noted .power := by
  refine State.touches_noted (standbyBegun_touches s) (State.raise_noted _ .power ?_)
  have hpower : ((s.withPower (standbyPower s.power)).queueRecord .power).power = standbyPower s.power :=
    (State.queueRecord_touches _ _).1 .power (by simp)
  rw [State.running, hpower]
  rfl

/-- R154: on an idle store the power record is being written at once. -/
theorem enterStandby_inFlight (h : Idle s) :
    s.enterStandby.store.inFlight = some ⟨.power ⟨.standby, false⟩, s.now + 1, false⟩ := by
  have hwrites := queueRecord_of_idle (s := s.withPower (standbyPower s.power)) h .power
  have hstore : s.enterStandby.store = ((s.withPower (standbyPower s.power)).queueRecord .power).store :=
    ((standbyBegun_touches s).1 .store (by simp)).trans ((State.raise_touches _ _).1 .store (by simp))
  rw [hstore, (Prod.mk.inj hwrites).2]
  rfl

theorem stopCard_state (s : State) : s.stopCard.card.state = .off := by
  unfold State.stopCard
  split
  · assumption
  · have htouches : (s.withCard (s.card.cutOff s.now .off)).touches
        ((s.withCard (s.card.cutOff s.now .off)).noteCard.signalLoss s.card.state) [.points] :=
      State.touches_trans (State.touches_mono (State.raise_touches _ _) (by simp)) (State.signalLoss_touches _ _)
    exact congrArg CardChannel.state (htouches.1 .card (by simp))

/-- R117, R119: a channel that is off has no loss to signal. -/
theorem stopCard_points (h : s.card.state = .off) : s.stopCard.points = s.points := by
  simp [State.stopCard, h]

theorem closeForStandby_state (s : State) (p : Side) : ((s.closeForStandby p).point p).state = .closed := by
  unfold State.closeForStandby
  split
  · assumption
  · have hpoints := (State.raise_touches (s.setPoint p { (s.point p).unentered .close with
      state := .closed, relay := false, reports := .clear }) (.point p)).1 .points (by simp)
    show (Sides.get ((State.setPoint _ _ _).raise (.point p)).points p).state = .closed
    rw [show _ = _ from hpoints]
    exact congrArg Point.state (s.point_setPoint_self p _)

theorem closeForStandby_of_ne (s : State) {p q : Side} (h : q ≠ p) : (s.closeForStandby p).point q = s.point q := by
  unfold State.closeForStandby
  split
  · rfl
  · have hpoints := (State.raise_touches (s.setPoint p { (s.point p).unentered .close with
      state := .closed, relay := false, reports := .clear }) (.point p)).1 .points (by simp)
    show Sides.get ((State.setPoint _ _ _).raise (.point p)).points q = s.point q
    rw [show _ = _ from hpoints]
    exact s.point_setPoint_of_ne h _

/-- R167: before the card channel takes part. -/
def standbyDark (s : State) : State := (((standbyBegun s).closeForStandby .a).closeForStandby .b).headsOff

theorem standbyDark_touches (s : State) : s.touches (standbyDark s) [.points, .heads, .power, .store] :=
  State.touches_trans
    (State.touches_trans
      (State.touches_mono (s.withPower_touches (standbyPower s.power)) (by simp))
      (State.touches_trans (State.touches_mono (State.queueRecord_touches _ .power) (by simp))
        (State.touches_mono (State.raise_touches _ .power) (by simp))))
    (State.touches_trans
      (State.touches_mono (State.touches_trans (State.closeForStandby_touches _ .a) (State.closeForStandby_touches _ .b))
        (by simp))
      (State.touches_mono (State.headsOff_touches _) (by simp)))

theorem standbyDark_closed (s : State) (p : Side) : ((standbyDark s).point p).state = .closed := by
  cases p with
  | a =>
    have hpoint := closeForStandby_of_ne ((standbyBegun s).closeForStandby .a) (p := .b) (q := .a) (by simp)
    exact (congrArg Point.state hpoint).trans (closeForStandby_state (standbyBegun s) .a)
  | b => exact closeForStandby_state ((standbyBegun s).closeForStandby .a) .b

/-- R29, R93, R119: with the reader off, STANDBY leaves both points CLOSED, the heads dark and the channel off. -/
theorem enterStandby_closed (h : s.card.state = .off) (p : Side) :
    (s.enterStandby.point p).state = .closed ∧ (s.enterStandby.head p).power = false ∧ s.enterStandby.card.state = .off := by
  have hcard : (standbyDark s).card = s.card := (standbyDark_touches s).1 .card (by simp)
  have hpoints : (standbyDark s).stopCard.points = (standbyDark s).points := stopCard_points (by rw [hcard, h])
  have hheads : (standbyDark s).stopCard.heads = (standbyDark s).heads := (State.stopCard_touches _).1 .heads (by simp)
  have hdark : s.enterStandby = (standbyDark s).stopCard := rfl
  rw [hdark]
  refine ⟨?_, ?_, stopCard_state _⟩
  · rw [State.point, hpoints]
    exact standbyDark_closed s p
  · rw [State.head, hheads]
    cases p <;> rfl

/-! ### Entry to WAKING -/

/-- R86, R88: an apply at the entry to WAKING changes the prices and their record. -/
theorem keeps_applyAtWake (h : s.prices.pending = none ∨ .prices ∈ lost) (hsub : {.records, .writes} ⊆ lost) :
    Keeps lost s s.applyAtWake := by
  unfold State.applyAtWake
  split
  · rename_i x hx
    have hprices : Item.prices ∈ lost := h.resolve_left (by simp [hx])
    have hvoid (u : State) (affected : BitVec 4) (p : Side) : Keeps lost u (u.voidForPrice affected p) := by
      unfold State.voidForPrice
      split
      · exact keeps_void u p _
      · exact .refl u
    split
    · exact (keeps_raise _ _).after <| (keeps_withPrices (.inr hprices)).after <| (keeps_withPrices (.inr hprices)).after <|
        ((keeps_queueRecord _ _).mono hsub).after <| (hvoid _ _ _).after <| (hvoid _ _ _).after <|
        keeps_withPrices (.inr hprices)
    · exact .refl s
  · exact .refl s

/-- R174: the power controller at the entry to WAKING. -/
def wakingPower (x : PowerController) : PowerController :=
  { x with state := .waking, stepIndex := 0, wait := none, steadySince := none }

/-- R174: the entry to WAKING, before its first step. -/
def wakingBegun (s : State) : State := ((s.withPower (wakingPower s.power)).notePower).applyAtWake

theorem wakingBegun_power (s : State) : (wakingBegun s).power = wakingPower s.power := by
  have happly (u : State) : u.applyAtWake.power = u.power := by
    unfold State.applyAtWake
    split
    · split
      · exact (State.applyPrices_touches _ _ _).1 .power (by simp)
      · rfl
    · rfl
  exact (happly _).trans ((State.raise_touches _ _).1 .power (by simp))

theorem enterWaking_eq (s : State) : s.enterWaking = (wakingBegun s).runSteps 1 s.power.table := by
  have htable : ((s.withPower (wakingPower s.power)).notePower).power = wakingPower s.power :=
    (State.raise_touches _ _).1 .power (by simp)
  show (wakingBegun s).runSteps 1 ((s.withPower (wakingPower s.power)).notePower).power.table = _
  rw [htable]
  rfl

/-- R174: the steps leave the part in the power state in which it was, or in RUN, or in STANDBY. -/
theorem runSteps_state (steps : List WakeStep) : ∀ (s : State) (n : Nat),
    (s.runSteps n steps).power.state ∈ [s.power.state, .run, .standby] := by
  induction steps with
  | nil =>
    intro s n
    have hrun : s.enterRun.power.state = .run :=
      congrArg PowerController.state ((State.touches_trans
        (State.touches_trans
          (State.touches_mono (State.touches_trans (State.headOn_touches (s.withPower _) .a) (State.headOn_touches _ .b))
            (by simp : ∀ b ∈ [Block.heads], b ∈ [Block.heads, .store]))
          (State.touches_mono (State.touches_trans (State.heaterOn_touches _ .a) (State.heaterOn_touches _ .b)) (by simp)))
        (State.touches_trans_of (State.queueRecord_touches _ .power) (State.raise_touches _ .power)
          (by simp) (by simp))).1 .power (by simp))
    simp [State.runSteps, hrun]
  | cons w rest ih =>
    intro s n
    have hstate {u : State} (h : Keeps Stepping s u) : u.power.state = s.power.state :=
      (Prod.mk.inj (h .phase (by simp [Stepping]))).1
    have hbegin := keeps_beginStep s n w
    have hend := hbegin.trans (keeps_endWait _)
    unfold State.runSteps
    dsimp only
    split
    · rw [hstate hbegin]; simp
    · rw [← hstate hend]; exact ih _ _
    · split
      · rw [← hstate (hend.trans (keeps_supplyFault _ .sequenceTimeout .note (some (.step n))))]; exact ih _ _
      · rw [← hstate (hend.trans (keeps_degradeWake _ n w))]; exact ih _ _
      · have hstandby : ((s.beginStep n w).endWait.abortWake n w).power.state = .standby :=
          congrArg PowerController.state (enterStandby_power _)
        simp [hstandby]

/-- R174, R175: a heater step with a delay is where the sequence stays. -/
theorem runSteps_delay {x : WakeStep} (rest : List WakeStep) (n : Nat) {p : Side} (haction : x.action = .heater p)
    (hwait : x.wait = .delay) (htime : x.time ≠ 0) :
    (s.runSteps n (x :: rest)).power.state = s.power.state ∧ (s.runSteps n (x :: rest)).power.stepIndex = n := by
  have hjudge (u : State) : u.judgeWait x = .waits := by simp [State.judgeWait, hwait, htime]
  have hrun : s.runSteps n (x :: rest) = s.beginStep n x := by simp [State.runSteps, hjudge]
  have hbegin : s.beginStep n x =
      (((s.withPower { s.power with stepIndex := n }).heaterOn p).startWait x).notePower := by
    simp [State.beginStep, State.takeAction, haction, hjudge]
  have hpower : (s.beginStep n x).power = (((s.withPower { s.power with stepIndex := n }).heaterOn p).startWait x).power := by
    rw [hbegin]
    exact (State.raise_touches _ _).1 .power (by simp)
  rw [hrun, hpower]
  exact ⟨rfl, rfl⟩

/-! ### Leaving RESTORE -/

/-- What the end of the restore may change. -/
def Leaving : Set Item := Running ∪ {.next, .marks}

/-- R166: no check loads what the end of the restore changes. -/
theorem check_of_leaving {i : Item} (h : i ∈ Leaving) : i.check = 0 := by
  simp only [Leaving, Running, Set.mem_union, Set.mem_insert_iff, Set.mem_singleton_iff] at h
  rcases h with (rfl | rfl | rfl | rfl) | rfl | rfl <;> rfl

theorem keeps_restartLoss (s : State) : Keeps lost s s.restartLoss := by
  intro i _
  cases i with
  | service p => exact ⟨rfl, rfl, id⟩
  | capture d => exact ⟨id, id⟩
  | notice n => exact id
  | _ => rfl

@[simp] theorem restartLoss_now (s : State) : s.restartLoss.now = s.now := rfl
@[simp] theorem restartLoss_store (s : State) : s.restartLoss.store = s.store := rfl
@[simp] theorem restartLoss_power (s : State) : s.restartLoss.power = s.power := rfl
theorem restartLoss_noted {n : Subject} : s.restartLoss.noted n ↔ s.noted n := Iff.rfl

theorem keeps_chosen (s : State) : Keeps {.next, .marks} s (s.withPower s.power.chosen) := by
  refine .of_touches (s.withPower_touches _) fun i hi hl => ?_
  cases i with
  | next | marks => simp at hl
  | schedule | loaded | cause | recovered | findings | clock | phase => rfl
  | _ => simp [Item.block] at hi

/-- R166: while a write waits or is in flight, the part stays in RESTORE. -/
theorem leaveRestore_of_writing (h : s.store.inFlight ≠ none) : s.leaveRestore = s := by
  simp [State.leaveRestore, h]

/-- R166: the state that the choice is made in. -/
def chosenState (s : State) : State := s.withPower s.power.chosen

theorem leaveRestore_of_standby (hrestoring : Restoring s) (hidle : Idle s) (h : s.power.nextState = .standby) :
    s.leaveRestore = (chosenState s).enterStandby.restartLoss := by
  simp only [Restoring, Idle, Prod.mk.injEq] at hrestoring hidle
  obtain ⟨hstate, hwaiting⟩ := hrestoring
  obtain ⟨hqueue, hnone⟩ := hidle
  have hnext : (chosenState s).power.nextState ≠ .waking := by
    rw [show (chosenState s).power.nextState = s.power.nextState from rfl, h]; simp
  rw [State.leaveRestore, if_pos ⟨hstate, by simp [hwaiting], hqueue, hnone⟩]
  exact congrArg State.restartLoss (if_neg hnext)

theorem leaveRestore_of_waking (hrestoring : Restoring s) (hidle : Idle s) (h : s.power.nextState = .waking) :
    s.leaveRestore = (chosenState s).enterWaking.restartLoss := by
  simp only [Restoring, Idle, Prod.mk.injEq] at hrestoring hidle
  obtain ⟨hstate, hwaiting⟩ := hrestoring
  obtain ⟨hqueue, hnone⟩ := hidle
  have hnext : (chosenState s).power.nextState = .waking := h
  rw [State.leaveRestore, if_pos ⟨hstate, by simp [hwaiting], hqueue, hnone⟩]
  exact congrArg State.restartLoss (if_pos hnext)

/-- R166: RESUME after RUN or WAKING. -/
theorem nextState_resume {x : PowerController} (hpolicy : x.policy = .resume) (hloaded : x.loaded = .run ∨ x.loaded = .waking) :
    x.nextState = .waking := by
  rcases hloaded with h | h <;> simp [PowerController.nextState, hpolicy, h]

/-- R166: everything else. -/
theorem nextState_hold {x : PowerController} (h : x.policy = .hold ∨ (x.loaded ≠ .run ∧ x.loaded ≠ .waking)) :
    x.nextState = .standby := by
  unfold PowerController.nextState
  split
  · rcases h with h | h <;> simp_all
  · rcases h with h | h <;> simp_all
  · rfl

theorem nextState_cases (x : PowerController) : x.nextState = .waking ∨ x.nextState = .standby := by
  unfold PowerController.nextState
  split
  · exact .inl rfl
  · exact .inl rfl
  · exact .inr rfl

theorem keeps_enterWaking (h : s.prices.pending = none ∨ .prices ∈ lost) (hsub : Running ⊆ lost) :
    Keeps lost s s.enterWaking := by
  rw [enterWaking_eq]
  refine ((keeps_runSteps _ _ _).mono hsub).after ((keeps_applyAtWake ?_ ?_).after
    ((keeps_raise _ _).after (keeps_withPower rfl (.inr (hsub (by simp [Running]))))))
  · have hprices : ((s.withPower (wakingPower s.power)).notePower).prices = s.prices :=
      (State.raise_touches _ _).1 .prices (by simp)
    rwa [hprices]
  · exact writing_subset_running.trans hsub

/-- R166: what the choice of the next state leaves, whichever state it is. -/
theorem keeps_leaveRestore_of_chosen (hrestoring : Restoring s) (hidle : Idle s)
    (h : s.prices.pending = none ∨ .prices ∈ lost) (hsub : Running ⊆ lost) : Keeps lost (chosenState s) s.leaveRestore := by
  rcases nextState_cases s.power with hnext | hnext
  · rw [leaveRestore_of_waking hrestoring hidle hnext]
    exact (keeps_enterWaking (s := chosenState s) h hsub).trans (keeps_restartLoss _)
  · rw [leaveRestore_of_standby hrestoring hidle hnext]
    exact ((keeps_enterStandby _).mono hsub).trans (keeps_restartLoss _)

theorem keeps_leaveRestore (hrestoring : Restoring s) (hidle : Idle s) (h : s.prices.pending = none) :
    Keeps Leaving s s.leaveRestore :=
  ((keeps_chosen s).mono Set.subset_union_right).trans
    (keeps_leaveRestore_of_chosen hrestoring hidle (.inl h) Set.subset_union_left)

/-- R166: the choice is recorded in the summary, and both marks are clear. -/
theorem leaveRestore_chosen (hrestoring : Restoring s) (hidle : Idle s) :
    s.leaveRestore.power.summary.next = some s.power.nextState ∧ s.leaveRestore.power.resetSeen = false ∧
    s.leaveRestore.power.pendingPrice = false := by
  have hkeeps : Keeps (insert .prices Running) (chosenState s) s.leaveRestore :=
    keeps_leaveRestore_of_chosen hrestoring hidle (.inr (Set.mem_insert _ _)) (Set.subset_insert _ _)
  have hnext : s.leaveRestore.power.summary.next = (chosenState s).power.summary.next := hkeeps .next (by simp [Running])
  have hmarks : (s.leaveRestore.power.resetSeen, s.leaveRestore.power.pendingPrice) = (false, false) :=
    hkeeps .marks (by simp [Running])
  exact ⟨hnext, (Prod.mk.inj hmarks).1, (Prod.mk.inj hmarks).2⟩

/-- R166, R179: the entry to the next state is notified. -/
theorem leaveRestore_noted (hrestoring : Restoring s) (hidle : Idle s) : s.leaveRestore.noted .power := by
  rcases nextState_cases s.power with hnext | hnext
  · have hraised : ((chosenState s).withPower (wakingPower (chosenState s).power)).notePower.noted .power :=
      State.raise_noted _ .power rfl
    have hbegun : (wakingBegun (chosenState s)).noted .power :=
      (keeps_applyAtWake (lost := {.records, .writes, .prices}) (.inr (by simp)) (by simp [Set.subset_def])).noted
        (by simp) hraised
    rw [leaveRestore_of_waking hrestoring hidle hnext, restartLoss_noted, enterWaking_eq]
    exact (keeps_runSteps (chosenState s).power.table (wakingBegun (chosenState s)) 1).noted (by simp [Running]) hbegun
  · rw [leaveRestore_of_standby hrestoring hidle hnext, restartLoss_noted]
    exact enterStandby_noted _

/-- R166: a part that leaves RESTORE enters WAKING, from which it may go on to RUN or STANDBY in the same event, or STANDBY. -/
theorem leaveRestore_state_ne (hrestoring : Restoring s) (hidle : Idle s) : s.leaveRestore.power.state ≠ .restore := by
  rcases nextState_cases s.power with hnext | hnext
  · have hsteps := runSteps_state (chosenState s).power.table (wakingBegun (chosenState s)) 1
    rw [← enterWaking_eq, wakingBegun_power] at hsteps
    rw [leaveRestore_of_waking hrestoring hidle hnext, restartLoss_power]
    intro hrestore
    rw [hrestore] at hsteps
    simp [wakingPower] at hsteps
  · rw [leaveRestore_of_standby hrestoring hidle hnext, restartLoss_power, enterStandby_power]
    simp [standbyPower]

/-- R166, R167: the entry to STANDBY, with its record being written. -/
theorem leaveRestore_standby (hrestoring : Restoring s) (hidle : Idle s) (h : s.power.nextState = .standby) :
    s.leaveRestore.power.state = .standby ∧ s.leaveRestore.power.field = .standby ∧
    s.leaveRestore.store.inFlight = some ⟨.power ⟨.standby, false⟩, s.leaveRestore.now + 1, false⟩ := by
  have hnow : s.leaveRestore.now = s.now := by
    rw [leaveRestore_of_standby hrestoring hidle h, restartLoss_now]
    exact (chosenState s).enterStandby_touches.1 .now (by simp)
  have hpower : s.leaveRestore.power = standbyPower (chosenState s).power := by
    rw [leaveRestore_of_standby hrestoring hidle h, restartLoss_power, enterStandby_power]
  have hchosen : Idle (chosenState s) := hidle
  refine ⟨by rw [hpower]; rfl, by rw [hpower]; rfl, ?_⟩
  rw [hnow, leaveRestore_of_standby hrestoring hidle h, restartLoss_store]
  exact enterStandby_inFlight hchosen

/-- R166, R174: the entry to WAKING with a heater step and a delay as its first. -/
theorem leaveRestore_waking (hrestoring : Restoring s) (hidle : Idle s) (h : s.power.nextState = .waking) {x : WakeStep}
    {rest : List WakeStep} (htable : s.power.table = x :: rest) {p : Side} (haction : x.action = .heater p)
    (hwait : x.wait = .delay) (htime : x.time ≠ 0) :
    s.leaveRestore.power.state = .waking ∧ s.leaveRestore.power.stepIndex = 1 := by
  have hsteps := runSteps_delay (s := wakingBegun (chosenState s)) rest 1 haction hwait htime
  rw [← htable, show s.power.table = (chosenState s).power.table from rfl, ← enterWaking_eq, wakingBegun_power] at hsteps
  rw [leaveRestore_of_waking hrestoring hidle h, restartLoss_power]
  exact hsteps

/-- R166: where the part goes by its policy and the loaded field. -/
theorem leaveRestore_choice (hrestoring : Restoring s) (hidle : Idle s) :
    (s.power.policy = .resume → (s.power.loaded = .run ∨ s.power.loaded = .waking) →
      s.leaveRestore.power.summary.next = some .waking ∧
      (∀ x rest, s.power.table = x :: rest → x.action = .heater .a → x.wait = .delay → x.time ≠ 0 →
        s.leaveRestore.power.state = .waking ∧ s.leaveRestore.power.stepIndex = 1)) ∧
    ((s.power.policy = .hold ∨ (s.power.loaded ≠ .run ∧ s.power.loaded ≠ .waking)) →
      s.leaveRestore.power.summary.next = some .standby ∧ s.leaveRestore.power.state = .standby) := by
  obtain ⟨hnext, _⟩ := leaveRestore_chosen hrestoring hidle
  refine ⟨fun hresume hloaded => ?_, fun hhold => ?_⟩
  · have hwaking := nextState_resume hresume hloaded
    exact ⟨hnext.trans (congrArg some hwaking), fun x rest htable haction hwait htime =>
      leaveRestore_waking hrestoring hidle hwaking htable haction hwait htime⟩
  · have hstandby := nextState_hold hhold
    exact ⟨hnext.trans (congrArg some hstandby), (leaveRestore_standby hrestoring hidle hstandby).1⟩

end Sys2Proof.Proofs.Restore
end

