-- ==== Sys2Proof/Proofs/RestoreLoaded.lean ====
section
/-! PROOF. What a completed restore wait leaves (R150, R153, R162 to R166), and the completed write that ends RESTORE (R166). -/

namespace Sys2Proof.Proofs.Restore

open Sys2Proof.Machine

variable {lost : Set Item} {s t : State}

/-! ### Checks that find nothing -/

/-- R165: no fault has arrived and no finding is listed. -/
def Faultless (s t : State) : Prop := t.captures = s.captures ∧ t.power.summary.findings = s.power.summary.findings

theorem Faultless.trans {u : State} (h : Faultless s t) (k : Faultless t u) : Faultless s u := ⟨k.1.trans h.1, k.2.trans h.2⟩

theorem findTotals_blank (h : Slot) : Records.blank.findTotals h = .blank := by
  simp [Records.findTotals, Records.blank, Vector.get_eq_getElem]

theorem findSnapshot_blank (p : Side) : Records.blank.findSnapshot p = .blank := by cases p <;> rfl

theorem faultless_checkTotals (h : Slot) (hblank : s.store.records = Records.blank) : Faultless s (s.checkTotals h) := by
  rw [State.checkTotals, hblank, findTotals_blank]
  exact ⟨rfl, rfl⟩

theorem faultless_foldl_checkTotals (slots : List Slot) : ∀ s : State, s.store.records = Records.blank →
    Faultless s (slots.foldl State.checkTotals s) := by
  induction slots with
  | nil => exact fun _ _ => ⟨rfl, rfl⟩
  | cons h rest ih =>
    intro s hblank
    have hrecords : (s.checkTotals h).store.records = s.store.records := keeps_checkTotals s h .records (by simp)
    exact (faultless_checkTotals h hblank).trans (ih _ (hrecords.trans hblank))

theorem faultless_checkSnapshot (p : Side) (hblank : s.store.records = Records.blank) : Faultless s (s.checkSnapshot p) := by
  rw [State.checkSnapshot, hblank, findSnapshot_blank]
  exact ⟨rfl, rfl⟩

/-- R145, R164: with blank records no check before that of the clock finds anything. -/
theorem faultless_check {n : Nat} (hn : 2 ≤ n ∧ n ≤ 7) (hblank : s.store.records = Records.blank) :
    Faultless s (check n s) := by
  unfold check
  split
  · omega
  · rw [State.checkMetrology, hblank]
    exact ⟨rfl, rfl⟩
  · rw [State.checkSettings, hblank]
    exact ⟨rfl, rfl⟩
  · rw [State.checkPrices, hblank]
    exact ⟨rfl, rfl⟩
  · exact faultless_foldl_checkTotals _ _ hblank
  · have hrecords : (s.checkSnapshot .a).store.records = s.store.records := keeps_checkSnapshot s .a .records (by simp)
    exact (faultless_checkSnapshot .a hblank).trans (faultless_checkSnapshot .b (hrecords.trans hblank))
  · rw [State.checkPower, hblank]
    exact ⟨rfl, rfl⟩
  · omega
  · exact ⟨rfl, rfl⟩

theorem faultless_checked (hblank : s.store.records = Records.blank) (hcause : s.power.cause = .dark) :
    ∀ {n : Nat}, n ≤ 7 → Faultless s (checked n s)
  | 0, _ => ⟨rfl, rfl⟩
  | 1, _ => by
    have hnone : checked 1 s = s := if_neg (by rw [show (checked 0 s).power.cause = .dark from hcause]; simp)
    rw [hnone]
    exact ⟨rfl, rfl⟩
  | n + 2, hn => (faultless_checked hblank hcause (n := n + 1) (by omega)).trans
      (faultless_check (by omega) ((records_checked s).trans hblank))

/-! ### The end of the restore wait -/

/-- R162, R163: volatile state is reset once the supply has read ABOVE_RESTORE for a second. -/
def restoreStart (s : State) (since : Nat) (strap : Bool) : State :=
  (s.advanceTo (since + Config.restoreWait)).resetVolatile (speedOf strap)

/-- R164: the state that the checks leave. -/
def loaded (s : State) (since : Nat) (strap : Bool) : State := (restoreStart s since strap).checkRecords

/-- R163: time runs the clock of the power controller, and leaves what it begins the restore with. -/
theorem advanceTo_power_items (s : State) (x : Nat) : (s.advanceTo x).power.cause = s.power.cause ∧
    (s.advanceTo x).power.clockKept = s.power.clockKept ∧ (s.advanceTo x).power.state = s.power.state := by
  rcases s.advanceTo_power x with h | h <;> rw [h] <;> exact ⟨rfl, rfl, rfl⟩

theorem restoreStart_eq (s : State) (since : Nat) (strap : Bool) :
    (restoreStart s since strap).now = max s.now (since + 1000) ∧
    (restoreStart s since strap).pins = s.pins ∧
    (restoreStart s since strap).store.records = s.store.records ∧
    (restoreStart s since strap).meters.units = s.pins.phases.map .afterRestore := by
  have hframe := s.advanceTo_changesOnly (since + Config.restoreWait)
  have hpins : (s.advanceTo (since + Config.restoreWait)).pins = s.pins := hframe .pins (by simp)
  have hstore : (s.advanceTo (since + Config.restoreWait)).store = s.store := hframe .store (by simp)
  have hreset (u : State) (speed : LineSpeed) : (u.resetVolatile speed).store.records = u.store.records ∧
      (u.resetVolatile speed).meters.units = u.pins.phases.map .afterRestore := ⟨rfl, rfl⟩
  obtain ⟨hrecords, hunits⟩ := hreset (s.advanceTo (since + Config.restoreWait)) (speedOf strap)
  exact ⟨s.advanceTo_now _, hpins, hrecords.trans (by rw [hstore]), hunits.trans (by rw [hpins])⟩

section
variable {since : Nat} {strap : Bool}

/-- R164: what no check loads reads as the reset has left it. -/
theorem same_loaded {i : Item} (hi : i.check = 0) : Same (restoreStart s since strap) (loaded s since strap) i := by
  rw [loaded, checkRecords_eq]
  exact same_unchecked _ (.inl hi) (by rintro rfl; cases hi)

theorem loaded_restoring (hstate : s.power.state = .restore) : Restoring (loaded s since strap) := by
  have hstart : Restoring (restoreStart s since strap) := by
    obtain ⟨_, _, hsame⟩ := advanceTo_power_items s (since + Config.restoreWait)
    exact congrArg (·, false) (hsame.trans hstate)
  exact Eq.trans (same_loaded (i := .phase) rfl) hstart

theorem loaded_idle : Idle (loaded s since strap) := same_loaded (i := .writes) rfl

/-- R77: no price set is pending. -/
theorem loaded_pending : (loaded s since strap).prices.pending = none :=
  (Prod.mk.inj (Prod.mk.inj (checkRecords_prices (restoreStart s since strap))).2).2

/-! #### What a state holds that has kept what was loaded -/

variable (hk : Keeps lost (loaded s since strap) t)
include hk

theorem kept_time (hl : .time ∉ lost) : since + 1000 ≤ t.now := by
  have hnow : t.now = (restoreStart s since strap).now := (hk .time hl).trans (same_loaded (i := .time) rfl)
  obtain ⟨hmax, _⟩ := restoreStart_eq s since strap
  omega

theorem kept_line (hl : .line ∉ lost) : t.link.speed = (if strap = true then .baud115200 else .baud57600) ∧
    t.link.up = true ∧ t.link.queue = [] := by
  have hline : (t.link.speed, t.link.up, t.link.queue) = (speedOf strap, true, []) :=
    (hk .line hl).trans (same_loaded (i := .line) rfl)
  simp only [Prod.mk.injEq] at hline
  exact hline

theorem kept_point (p : Side) (hl : .service p ∉ lost) :
    (t.point p).sale = none ∧ (t.point p).entry = none ∧ (t.point p).stack = [] := by
  have hstart : (restoreStart s since strap).point p = .afterRestore := by cases p <;> rfl
  obtain ⟨hsale, hstack, hentry⟩ := same_trans (same_loaded (i := .service p) rfl) (hk (.service p) hl)
  rw [hstart] at hsale hstack hentry
  exact ⟨hsale, hentry rfl, hstack⟩

theorem kept_meter (hl : .meters ∉ lost) (m : Meter) :
    (t.meter m).reference = s.pins.phases.get m ∧ (t.meter m).count = 0 ∧ (t.meter m).holder = none := by
  have hmeters : t.meters = (restoreStart s since strap).meters := (hk .meters hl).trans (same_loaded (i := .meters) rfl)
  obtain ⟨_, _, _, hunits⟩ := restoreStart_eq s since strap
  have hmeter : t.meter m = .afterRestore (s.pins.phases.get m) := by
    rw [State.meter, hmeters, hunits]
    simp [Vector.get_eq_getElem]
  rw [hmeter]
  exact ⟨rfl, rfl, rfl⟩

theorem kept_metrology (hl : .metrology ∉ lost) : t.metrology = loadedMetrology s.store.records.findMetrology := by
  obtain ⟨_, _, hrecords, _⟩ := restoreStart_eq s since strap
  rw [← hrecords]
  exact (hk .metrology hl).trans (checkRecords_metrology _)

theorem kept_holdsHalt (p : Side) (hl : .capture (Side.domain p) ∉ lost) (h : s.store.records.findMetrology = .damaged) :
    t.holdsHalt (Side.domain p) = true := by
  obtain ⟨_, _, hrecords, _⟩ := restoreStart_eq s since strap
  rw [← hrecords] at h
  exact (hk (.capture (Side.domain p)) hl).2 (checkRecords_holdsHalt _ p h)

theorem kept_settings (hl : ∀ i : Item, i.check = 3 → i ∉ lost) :
    t.settings = loadedSettings s.store.records.findSettings := by
  obtain ⟨_, _, hrecords, _⟩ := restoreStart_eq s since strap
  rw [← hrecords]
  exact (settings_eq fun i hi => hk i (hl i hi)).trans (checkRecords_settings _)

theorem kept_prices (hl : .prices ∉ lost) : t.prices.active = (loadedPrices s.store.records.findPrice).active ∧
    t.prices.generation = (loadedPrices s.store.records.findPrice).generation := by
  obtain ⟨_, _, hrecords, _⟩ := restoreStart_eq s since strap
  have hprices := Eq.trans (hk .prices hl) (checkRecords_prices (restoreStart s since strap))
  rw [hrecords] at hprices
  simp only [Prod.mk.injEq] at hprices
  exact ⟨hprices.1, hprices.2.1⟩

theorem kept_totals (h : Slot) (hl : .totals h ∉ lost) : t.totals h = loadedTotals (s.store.records.findTotals h) := by
  obtain ⟨_, _, hrecords, _⟩ := restoreStart_eq s since strap
  rw [← hrecords]
  exact (hk (.totals h) hl).trans (checkRecords_totals _ h)

theorem kept_snapshot (p : Side)
    (hl : ∀ i ∈ [.snapshot p, .lastSale p, .lastNumber p, Item.capture (Side.domain p)], i ∉ lost) :
    SnapshotLoaded t p (loadedSnapshot (s.store.records.findSnapshot p)) (s.store.records.findSnapshot p = .damaged) := by
  obtain ⟨_, _, hrecords, _⟩ := restoreStart_eq s since strap
  rw [← hrecords]
  exact (checkRecords_snapshot _ p).of_keeps hk hl

theorem kept_cause (hl : .cause ∉ lost) : t.power.summary.cause = s.power.cause := by
  obtain ⟨hcause, _⟩ := advanceTo_power_items s (since + Config.restoreWait)
  exact ((hk .cause hl).trans (same_loaded (i := .cause) rfl)).trans hcause

/-- R164, step 8. -/
theorem kept_clock (hl : .clock ∉ lost) : t.power.summary.clockKept = s.power.clockKept ∧ t.power.clockKept = true ∧
    (s.power.clockKept = false → t.power.clockValid = false ∧ t.power.clock = 0) := by
  have hbefore : clock (checked 7 (restoreStart s since strap)).power = clock (restoreStart s since strap).power :=
    same_unchecked _ (i := .clock) (by simp [Item.check]) (by simp)
  obtain ⟨_, hstart, _⟩ := advanceTo_power_items s (since + Config.restoreWait)
  have hwas : (checked 7 (restoreStart s since strap)).power.clockKept = s.power.clockKept := by
    simp only [clock, Prod.mk.injEq] at hbefore
    exact hbefore.2.2.1.trans hstart
  have hclock : clock t.power = clock (checked 7 (restoreStart s since strap)).checkClock.power := hk .clock hl
  simp only [clock, Prod.mk.injEq] at hclock
  obtain ⟨hzero, hvalid, hkept, hsummary⟩ := hclock
  obtain ⟨hsummary', hkept'⟩ := checkClock_clockKept (checked 7 (restoreStart s since strap))
  refine ⟨by rw [hsummary, hsummary', hwas], hkept.trans hkept', fun hlost => ?_⟩
  obtain ⟨hvalid', hzero'⟩ := checkClock_clock (hwas.trans hlost)
  exact ⟨hvalid.trans hvalid', hzero.trans hzero'⟩

theorem kept_loaded (hl : .loaded ∉ lost) {f : PowerState} (h : s.store.records.findPower = .valid ⟨f, true⟩) :
    t.power.loaded = f := by
  obtain ⟨_, _, hrecords, _⟩ := restoreStart_eq s since strap
  rw [← hrecords] at h
  exact (hk .loaded hl).trans (checkRecords_loaded _ h)

end

/-- R129: with the housing closed no tamper event comes before the checks. -/
theorem restore_of_closed {speed : LineSpeed} (h : s.pins.tamperOpen = false) : s.restore speed =
    (((s.resetVolatile speed).checkRecords.settleSnapshot .a).settleSnapshot .b).summarize.leaveRestore := by
  have hwatch : (s.resetVolatile speed).watchTamper = s.resetVolatile speed :=
    if_neg (by rw [show (s.resetVolatile speed).pins = s.pins from rfl, h]; simp)
  rw [State.restore, hwatch]

/-- R162: the row of the completed wait runs the restore path. -/
theorem exec_restoreWaitComplete {since : Nat} (strap : Bool) (hsince : s.power.aboveSince = some since)
    (hwaiting : s.power.restoreWaiting = true) (hreset : s.pins.resetAsserted = false) (htamper : s.pins.tamperOpen = false) :
    exec (.restoreWaitComplete strap) s =
      .next (((loaded s since strap).settleSnapshot .a).settleSnapshot .b).summarize.leaveRestore := by
  have hpins : (s.advanceTo (since + Config.restoreWait)).pins = s.pins := (s.advanceTo_changesOnly _) .pins (by simp)
  have hrow : exec (.restoreWaitComplete strap) s =
      .next ((s.advanceTo (since + Config.restoreWait)).restore (speedOf strap)) := by
    simp [exec, execRestoreWaitComplete, hsince, hwaiting, hreset]
  rw [hrow, restore_of_closed (by rw [hpins, htamper]), loaded, restoreStart]

/-! ### A restore without a sale to settle -/

theorem loaded_snapshot (s : State) (since : Nat) (strap : Bool) (p : Side) :
    (loaded s since strap).store.snapshots.get p = loadedSnapshot (s.store.records.findSnapshot p) :=
  (kept_snapshot (lost := ∅) (Keeps.refl _) p (by simp)).1

/-- R153: with no ENDED and no POWER snapshot nothing is settled. -/
theorem settleSnapshot_loaded {since : Nat} {strap : Bool} {p : Side}
    (h : (loadedSnapshot (s.store.records.findSnapshot p)).sale? = none) :
    (loaded s since strap).settleSnapshot p = loaded s since strap :=
  settleSnapshot_of_no_sale (by rw [loaded_snapshot, h])

theorem loadedSnapshot_sale? {x : Found Snapshot} (h : ∀ r, x ≠ .valid (.ended r) ∧ x ≠ .valid (.power r)) :
    (loadedSnapshot x).sale? = none := by
  cases x with
  | blank | damaged => rfl
  | valid y =>
    cases y with
    | none | damaged => rfl
    | ended r => exact absurd rfl (h r).1
    | power r => exact absurd rfl (h r).2

/-- R165, R166: the state that a restore without a settlement leaves. -/
def restored (s : State) (since : Nat) (strap : Bool) : State := (loaded s since strap).summarize.leaveRestore

section
variable {since : Nat} {strap : Bool}

theorem keeps_restored (hstate : s.power.state = .restore) : Keeps Leaving (loaded s since strap) (restored s since strap) := by
  have hpending : (loaded s since strap).summarize.prices.pending = none := (summarize_pending _).trans loaded_pending
  have hrestoring : Restoring (loaded s since strap).summarize := summarize_restoring (loaded_restoring hstate)
  have hidle : Idle (loaded s since strap).summarize := summarize_idle loaded_idle
  unfold restored
  exact (keeps_summarize (loaded s since strap)).trans (keeps_leaveRestore hrestoring hidle hpending)

/-- R166: the choice of the next state clears both marks. -/
theorem restored_marks (hstate : s.power.state = .restore) :
    (restored s since strap).power.resetSeen = false ∧ (restored s since strap).power.pendingPrice = false := by
  rw [restored]
  exact (leaveRestore_chosen (summarize_restoring (loaded_restoring hstate)) (summarize_idle loaded_idle)).2

/-- R166: with valid settings and a saved power record the loaded policy and field choose. -/
theorem restored_choice (hstate : s.power.state = .restore) {c : Settings} {f : PowerState}
    (hsettings : s.store.records.findSettings = .valid c) (hpower : s.store.records.findPower = .valid ⟨f, true⟩) :
    (c.policy = .resume → (f = .run ∨ f = .waking) → (restored s since strap).power.summary.next = some .waking ∧
      (∀ y, c.table = [y] → y.action = .heater .a → y.wait = .delay → y.time ≠ 0 →
        (restored s since strap).power.state = .waking ∧ (restored s since strap).power.stepIndex = 1)) ∧
    ((c.policy = .hold ∨ (f ≠ .run ∧ f ≠ .waking)) →
      (restored s since strap).power.summary.next = some .standby ∧ (restored s since strap).power.state = .standby) := by
  have hkeeps : Keeps ∅ (loaded s since strap) (loaded s since strap).summarize := keeps_summarize _
  have hall : (loaded s since strap).summarize.settings = c := by
    rw [kept_settings hkeeps (by simp), hsettings, loadedSettings]
  have hloaded : (loaded s since strap).summarize.power.loaded = f := kept_loaded hkeeps (by simp) hpower
  obtain ⟨hpolicy, htable⟩ := choice_of_settings hall
  have hchoice := leaveRestore_choice (summarize_restoring (loaded_restoring (since := since) (strap := strap) hstate))
    (summarize_idle loaded_idle)
  rw [hpolicy, htable, hloaded, ← restored] at hchoice
  obtain ⟨hresume, hhold⟩ := hchoice
  refine ⟨fun hp hf => ?_, hhold⟩
  obtain ⟨hnext, hstep⟩ := hresume hp hf
  exact ⟨hnext, fun y hy => hstep y [] hy⟩

/-! #### A new part -/

/-- R164, step 8: a clock that was not kept is a finding. -/
theorem checkClock_finding (hrestoring : Restoring s) (hlost : s.power.clockKept = false) :
    s.checkClock.power.summary.findings = s.power.summary.findings ++ [⟨.clockLost, .supply, none⟩] ∧
    s.checkClock.captures =
      s.captures.set .supply ((s.capture .supply).arrive ⟨.clockLost, .note, none, none⟩) ∧
    s.checkClock.noted (.fault .supply) := by
  have hpower : ((clearClock s).arrive .supply ⟨.clockLost, .note, none, none⟩).power = (clearClock s).power :=
    (State.arrive_touches _ _ _).1 .power (by simp)
  have hfindings : ((clearClock s).find .supply .clockLost .note none).power.summary.findings =
      s.power.summary.findings ++ [⟨.clockLost, .supply, none⟩] := by
    rw [State.find, State.withPower_power, hpower]
    rfl
  have hrun : (clearClock s).running = true := hrestoring.running
  rw [checkClock_of_not_kept hlost]
  exact ⟨hfindings, find_captures (clearClock s) .supply .clockLost .note none, State.raise_noted _ _ hrun⟩

/-- R145, R164, R165: a restore from blank records, with a clock that was not kept, finds that alone. -/
theorem loaded_finding (hblank : s.store.records = Records.blank) (hcause : s.power.cause = .dark)
    (hstate : s.power.state = .restore) (hlost : s.power.clockKept = false) :
    (loaded s since strap).power.summary.findings = [⟨.clockLost, .supply, none⟩] ∧
    (loaded s since strap).captures =
      Captures.empty.set .supply (Capture.empty.arrive ⟨.clockLost, .note, none, none⟩) ∧
    (loaded s since strap).noted (.fault .supply) := by
  obtain ⟨_, _, hrecords, _⟩ := restoreStart_eq s since strap
  obtain ⟨hstart, hkept, hsame⟩ := advanceTo_power_items s (since + Config.restoreWait)
  obtain ⟨hcaptures, hfindings⟩ : Faultless (restoreStart s since strap) (checked 7 (restoreStart s since strap)) :=
    faultless_checked (hrecords.trans hblank) (hstart.trans hcause) (by omega)
  have hclock : clock (checked 7 (restoreStart s since strap)).power = clock (restoreStart s since strap).power :=
    same_unchecked _ (i := .clock) (by simp [Item.check]) (by simp)
  simp only [clock, Prod.mk.injEq] at hclock
  obtain ⟨_, _, hwas, _⟩ := hclock
  have hphase : Same (restoreStart s since strap) (checked 7 (restoreStart s since strap)) .phase :=
    same_unchecked _ (.inl rfl) (by simp)
  have hrestoring : Restoring (checked 7 (restoreStart s since strap)) :=
    Eq.trans hphase (congrArg (·, false) (hsame.trans hstate))
  have hloaded : loaded s since strap = (checked 7 (restoreStart s since strap)).checkClock := rfl
  have hreset : (restoreStart s since strap).power.summary.findings = [] ∧
      (restoreStart s since strap).captures = .empty := ⟨rfl, rfl⟩
  have hfinding := checkClock_finding hrestoring ((hwas.trans hkept).trans hlost)
  rw [← hloaded, hfindings, State.capture, hcaptures, hreset.1, hreset.2] at hfinding
  exact hfinding

end

end Sys2Proof.Proofs.Restore
end

