-- ==== Sys2Proof/Proofs/RestoreRecords.lean ====
section
/-! PROOF. The sale of a snapshot at a restore (R150, R153), the completed write that ends RESTORE (R146, R166), and what both leave
together with the loaded records. -/

namespace Sys2Proof.Proofs.Restore

open Sys2Proof.Machine

variable {lost : Set Item} {s t : State}

/-! ### A restore with the sale of a snapshot -/

/-- What the settlement of a sale of a point may change. -/
def Settling (p : Side) (r : SaleRecord) : Set Item := {.totals r.hose, .records, .writes, .service p, .recovered}

/-- What holds once the sale of a point's snapshot is settled. -/
structure Settled (s t : State) (p : Side) (r : SaleRecord) : Prop where
  keeps : Keeps (Settling p r) s t
  totals : t.totals r.hose = (s.totals r.hose).add r
  writes : (t.store.queue, t.store.inFlight) = ([], some ⟨.totals r.hose ((s.totals r.hose).add r), s.now + 1, false⟩)
  ended : s.store.snapshots.get p = .ended r → (t.point p).stack = (s.point p).stack ∧
    t.power.summary.recovered = s.power.summary.recovered
  power : s.store.snapshots.get p = .power r → (t.point p).stack = (s.point p).stack ++ [{ r with recovered := true }] ∧
    t.power.summary.recovered = s.power.summary.recovered ++ [⟨p, r.number⟩] ∧ t.noted (.sale p)

section
variable {p : Side} {r : SaleRecord} (hvolume : r.displayed ≠ 0) (hnew : (s.totals r.hose).last ≠ r.number) (hidle : Idle s)
include hvolume hnew hidle

theorem settled_ended (hx : s.store.snapshots.get p = .ended r) : Settled s (s.settleSnapshot p) p r := by
  have hsettle : s.settleSnapshot p = s.settle r := by
    simp [State.settleSnapshot, unsettled_of_new (p := p) (r := r) (by rw [hx]; rfl) hvolume hnew, hx]
  have hkeeps := keeps_settle hnew
  rw [hsettle]
  have hservice : Same s (s.settle r) (.service p) := hkeeps _ (by simp)
  exact ⟨hkeeps.mono (by simp [Settling, Set.subset_def]), settle_totals hnew, settle_writes hidle hnew,
    fun _ => ⟨hservice.2.1, hkeeps .recovered (by simp)⟩, fun h => by simp [hx] at h⟩

theorem settled_power (hrestoring : Restoring s) (hx : s.store.snapshots.get p = .power r) :
    Settled s (s.settleSnapshot p) p r := by
  have hsettle : s.settleSnapshot p = (s.settle r).pushRecovered p r := by
    simp [State.settleSnapshot, unsettled_of_new (p := p) (r := r) (by rw [hx]; rfl) hvolume hnew, hx]
  have hkeeps := keeps_settle hnew
  have hpushed := keeps_pushRecovered (s.settle r) p r
  have hservice : Same s (s.settle r) (.service p) := hkeeps _ (by simp)
  have hrecovered : (s.settle r).power.summary.recovered = s.power.summary.recovered := hkeeps .recovered (by simp)
  have hrun : Restoring (s.settle r) := Eq.trans (hkeeps .phase (by simp)) hrestoring
  obtain ⟨hstack, hlist, hnoted⟩ := pushRecovered_pushed (s.settle r) p r hrun.running
  rw [hsettle]
  refine ⟨(hkeeps.mono (by simp [Settling, Set.subset_def])).trans (hpushed.mono (by simp [Settling, Set.subset_def])),
    Eq.trans (hpushed (.totals r.hose) (by simp)) (settle_totals hnew),
    Eq.trans (hpushed .writes (by simp)) (settle_writes hidle hnew), fun h => by simp [hx] at h, fun _ => ?_⟩
  exact ⟨by rw [hstack, hservice.2.1], by rw [hlist, hrecovered], hnoted⟩

end

/-- R165: the summary adds nothing to a settlement. -/
theorem Settled.summarize {p : Side} {r : SaleRecord} (h : Settled s t p r) : Settled s t.summarize p r := by
  obtain ⟨hkeeps, htotals, hwrites, hended, hpower⟩ := h
  have hsummary : Keeps ∅ t t.summarize := keeps_summarize t
  have hstack : (t.summarize.point p).stack = (t.point p).stack := (hsummary (.service p) (by simp)).2.1
  have hrecovered : t.summarize.power.summary.recovered = t.power.summary.recovered := hsummary .recovered (by simp)
  refine ⟨hkeeps.trans (hsummary.mono (by simp)), Eq.trans (hsummary (.totals r.hose) (by simp)) htotals,
    Eq.trans (hsummary .writes (by simp)) hwrites, fun hx => ?_, fun hx => ?_⟩
  · rw [hstack, hrecovered]; exact hended hx
  · obtain ⟨hpushed, hlisted, hnoted⟩ := hpower hx
    exact ⟨hstack.trans hpushed, hrecovered.trans hlisted, hsummary.noted (by simp) hnoted⟩

/-- R153: a settlement leaves the snapshot of the other point. -/
theorem settle_snapshots (s : State) (r : SaleRecord) : (s.settle r).store.snapshots = s.store.snapshots := by
  unfold State.settle
  split
  · exact (State.queueRecord_store _ _).2.1
  · rfl

theorem settleSnapshot_snapshots (s : State) (p : Side) : (s.settleSnapshot p).store.snapshots = s.store.snapshots := by
  have hpush (u : State) (r : SaleRecord) : (u.pushRecovered p r).store = u.store :=
    congrArg (fun x => x) ((State.raise_touches _ _).1 .store (by simp))
  unfold State.settleSnapshot
  split
  · split
    · exact settle_snapshots s _
    · rw [hpush, settle_snapshots]
    · rfl
    · rfl
  · rfl

/-- R153: with one sale to settle, A before B makes no difference. -/
theorem settleSnapshot_both {p : Side} (h : (s.store.snapshots.get (Side.other p)).sale? = none) :
    (s.settleSnapshot .a).settleSnapshot .b = s.settleSnapshot p := by
  cases p with
  | a => exact settleSnapshot_of_no_sale (by rw [settleSnapshot_snapshots]; exact h)
  | b => rw [settleSnapshot_of_no_sale (p := .a) h]

section
variable {since : Nat} {strap : Bool} {p : Side} {r : SaleRecord} {x : Snapshot} {c : Totals}

/-- What the restore has loaded for a point with a snapshot of a sale, and for the other without one. -/
theorem kept_sale (hk : Keeps lost (loaded s since strap) t) (hx : s.store.records.findSnapshot p = .valid x)
    (hsale : x.sale? = some r) (hlast : x.lastSale = .figures r.displayed r.money r.unverified)
    (hl : ∀ i ∈ [.snapshot p, .lastSale p, .lastNumber p, Item.capture (Side.domain p), .service (Side.other p)], i ∉ lost) :
    t.store.snapshots.get p = x ∧ (t.point p).lastNumber = r.number ∧
    (t.head p).lastSale = .figures r.displayed r.money r.unverified ∧
    t.point (Side.other p) = { t.point (Side.other p) with stack := [] } := by
  have hloaded := kept_snapshot hk p (fun i hi => hl i (by simp only [List.mem_cons] at hi ⊢; tauto))
  rw [hx, loadedSnapshot] at hloaded
  obtain ⟨hsnapshot, hhead, hnumber, _⟩ := hloaded
  obtain ⟨_, _, hstack⟩ := kept_point hk (Side.other p) (hl _ (by simp))
  refine ⟨hsnapshot, hnumber r hsale, hhead.trans hlast, ?_⟩
  rw [← hstack]

/-- R150, R153, R166: a sale that needs no settlement leaves totals and stack, and the part leaves RESTORE. -/
theorem restored_sale (hstate : s.power.state = .restore) (htotals : s.store.records.findTotals r.hose = .valid c) :
    (restored s since strap).totals r.hose = c ∧ ((restored s since strap).point p).stack = [] ∧
    (restored s since strap).power.summary.recovered = [] ∧ (restored s since strap).power.state ≠ .restore := by
  have hk : Keeps Leaving (loaded s since strap) (restored s since strap) := keeps_restored hstate
  obtain ⟨_, _, hstack⟩ := kept_point hk p (by simp [Leaving, Running])
  have hrecovered : (loaded s since strap).power.summary.recovered = [] := same_loaded (i := .recovered) rfl
  refine ⟨?_, hstack, Eq.trans (hk .recovered (by simp [Leaving, Running])) hrecovered, ?_⟩
  · rw [kept_totals hk r.hose (by simp [Leaving, Running]), htotals, loadedTotals]
  · rw [restored]
    exact leaveRestore_state_ne (summarize_restoring (loaded_restoring hstate)) (summarize_idle loaded_idle)

/-- R150, R153, R166: a settled sale is in its slot's totals, whose write keeps the part in RESTORE. -/
theorem settled_sale (hstate : s.power.state = .restore) (htotals : s.store.records.findTotals r.hose = .valid c)
    (hx : s.store.records.findSnapshot p = .valid x) (hs : Settled (loaded s since strap) t p r) :
    t.totals r.hose = c.add r ∧ t.power.state = .restore ∧ t.power.summary.next = none ∧
    t.store.inFlight = some ⟨.totals r.hose (c.add r), t.now + 1, false⟩ ∧ t.store.queue = [] ∧
    (x = .ended r → (t.point p).stack = [] ∧ t.power.summary.recovered = []) ∧
    (x = .power r → (t.point p).stack = [{ r with recovered := true }] ∧ t.power.summary.recovered = [⟨p, r.number⟩] ∧
      t.noted (.sale p)) := by
  obtain ⟨hkeeps, hadded, hwrites, hended, hpower⟩ := hs
  have hloaded : (loaded s since strap).totals r.hose = c := by
    rw [kept_totals (lost := ∅) (Keeps.refl _) r.hose (by simp), htotals, loadedTotals]
  have hsnapshot : (loaded s since strap).store.snapshots.get p = x := by rw [loaded_snapshot, hx, loadedSnapshot]
  obtain ⟨_, _, hstack⟩ := kept_point (lost := ∅) (Keeps.refl (loaded s since strap)) p (by simp)
  have hrecovered : (loaded s since strap).power.summary.recovered = [] := same_loaded (i := .recovered) rfl
  have hnext : (loaded s since strap).power.summary.next = none := same_loaded (i := .next) rfl
  have hnow : t.now = (loaded s since strap).now := hkeeps .time (by simp [Settling])
  have hrestoring : Restoring t := Eq.trans (hkeeps .phase (by simp [Settling])) (loaded_restoring hstate)
  rw [hloaded, ← hnow] at hwrites
  rw [hsnapshot, hstack, hrecovered] at hended hpower
  exact ⟨by rw [hadded, hloaded], (Prod.mk.inj hrestoring).1, (hkeeps .next (by simp [Settling])).trans hnext,
    (Prod.mk.inj hwrites).2, (Prod.mk.inj hwrites).1, hended, hpower⟩

end

/-! ### The write that ends RESTORE -/

theorem sealWrite_changesOnly (s : State) (w : InFlight) : s.changesOnly (s.sealWrite w) [.store, .metrology] := by
  have hstore (u : State) (x : Store) : u.changesOnly (u.withStore x) [.store, .metrology] :=
    State.changesOnly_mono (u.withStore_changesOnly x) (by simp)
  unfold State.sealWrite
  dsimp only
  split
  · split
    · exact hstore _ _
    · exact State.changesOnly_trans (hstore _ _) (hstore _ _)
  · exact State.changesOnly_trans (hstore _ _) (State.changesOnly_mono (State.withMetrology_changesOnly _ _) (by simp))
  · exact hstore _ _

/-- R146: of the store a sealed write changes the records, the write in flight and a dirty flag. -/
theorem sealWrite_store (s : State) (w : InFlight) :
    (s.sealWrite w).store.queue = s.store.queue ∧ (s.sealWrite w).store.inFlight = none ∧
    (s.sealWrite w).store.totals = s.store.totals ∧ (s.sealWrite w).store.snapshots = s.store.snapshots := by
  unfold State.sealWrite
  dsimp only
  split
  · split <;> exact ⟨rfl, rfl, rfl, rfl⟩
  · exact ⟨rfl, rfl, rfl, rfl⟩
  · exact ⟨rfl, rfl, rfl, rfl⟩

/-- What a completed write in RESTORE may change. -/
def Writing : Set Item := {.metrology, .records, .writes}

theorem keeps_sealWrite (s : State) (w : InFlight) : Keeps Writing s (s.sealWrite w) := by
  obtain ⟨_, _, htotals, hsnapshots⟩ := sealWrite_store s w
  refine .of_touches (State.touches_of_changesOnly (sealWrite_changesOnly s w) (by simp)) fun i hi hl => ?_
  cases i with
  | totals h => exact congrArg (Vector.get · h) htotals
  | snapshot p => exact congrArg (Sides.get · p) hsnapshots
  | metrology | records | writes => simp [Writing] at hl
  | _ => simp [Item.block] at hi

theorem foldl_finish_touches (replies : List WaitingReply) : ∀ s : State,
    s.touches (replies.foldl (fun s w => s.finish w.frame) s) [] := by
  induction replies with
  | nil => exact fun s => s.touches_refl _
  | cons w rest ih => exact fun s => State.touches_trans (s.finish_touches _) (ih _)

theorem answerWrite_changesOnly (s : State) (r : RecordId) : s.changesOnly (s.answerWrite r) [.link] :=
  State.changesOnly_trans (s.withLink_changesOnly _) (foldl_finish_touches _ _).1

theorem keeps_answerWrite (s : State) (r : RecordId) : Keeps lost s (s.answerWrite r) := by
  have hwaiting (l : List WaitingReply) : Keeps lost s (s.withLink { s.link with waiting := l }) := by
    intro i _
    cases i with
    | service p => exact ⟨rfl, rfl, id⟩
    | capture d => exact ⟨id, id⟩
    | notice n => exact id
    | _ => rfl
  exact (hwaiting _).trans (.of_touches_nil (foldl_finish_touches _ _))

theorem keeps_beginNext (s : State) : Keeps Writing s s.beginNext := by
  obtain ⟨htotals, hsnapshots, _⟩ := s.beginNext_store
  refine .of_touches (State.touches_of_changesOnly s.beginNext_changesOnly (by simp)) fun i hi hl => ?_
  cases i with
  | totals h => exact congrArg (Vector.get · h) htotals
  | snapshot p => exact congrArg (Sides.get · p) hsnapshots
  | records | writes => simp [Writing] at hl
  | _ => simp [Item.block] at hi

/-- R9: a CLOSED point has no start condition to evaluate. -/
theorem afterWrite_of_closed (h : ∀ p, (s.point p).state = .closed) (r : RecordId) : s.afterWrite r = s := by
  cases r with
  | totals k => exact s.evaluateStart_of_ne _ (by rw [h]; simp)
  | _ => rfl

/-- R146, R147: the state in which the next power state is chosen, or the next write is in flight. -/
def written (s : State) (w : InFlight) : State :=
  (((s.advanceTo w.due).sealWrite w).answerWrite w.content.record).beginNext

theorem keeps_written (s : State) (w : InFlight) : Keeps ({.time, .clock} ∪ Writing) s (written s w) := by
  have htime : Keeps {.time, .clock} s (s.advanceTo w.due) := by
    refine .of_touches (State.touches_of_changesOnly (s.advanceTo_changesOnly _) (by simp)) fun i hi hl => ?_
    cases i with
    | time | clock => simp at hl
    | schedule | loaded | marks | cause | next | recovered | findings | phase =>
      rcases s.advanceTo_power w.due with h | h
      · simp only [Same, h]
      · simp only [Same, h]; rfl
    | _ => simp [Item.block] at hi
  exact htime.union (((keeps_sealWrite _ w).trans (keeps_answerWrite _ _)).trans (keeps_beginNext _))

theorem written_points (s : State) (w : InFlight) : (written s w).points = s.points :=
  calc (written s w).points = (((s.advanceTo w.due).sealWrite w).answerWrite w.content.record).points :=
        State.beginNext_changesOnly _ .points (by simp)
    _ = ((s.advanceTo w.due).sealWrite w).points := answerWrite_changesOnly _ _ .points (by simp)
    _ = (s.advanceTo w.due).points := sealWrite_changesOnly _ _ .points (by simp)
    _ = s.points := s.advanceTo_changesOnly _ .points (by simp)

/-- R146: the write that has ended leaves the queue to the next one. -/
theorem answered_store (s : State) (w : InFlight) :
    (((s.advanceTo w.due).sealWrite w).answerWrite w.content.record).store.queue = s.store.queue ∧
    (((s.advanceTo w.due).sealWrite w).answerWrite w.content.record).store.inFlight = none := by
  have hanswered : (((s.advanceTo w.due).sealWrite w).answerWrite w.content.record).store =
      ((s.advanceTo w.due).sealWrite w).store := answerWrite_changesOnly _ _ .store (by simp)
  have hstore : (s.advanceTo w.due).store = s.store := s.advanceTo_changesOnly _ .store (by simp)
  obtain ⟨hqueue, hnone, _⟩ := sealWrite_store (s.advanceTo w.due) w
  exact ⟨by rw [hanswered, hqueue, hstore], by rw [hanswered, hnone]⟩

theorem beginNext_of_nil (h : s.store.queue = []) : s.beginNext = s := by
  unfold State.beginNext
  split
  · rename_i hq; simp [h] at hq
  · rfl

theorem beginNext_inFlight {r : RecordId} {rest : List RecordId} (hqueue : s.store.queue = r :: rest)
    (hnone : s.store.inFlight = none) : s.beginNext.store.inFlight ≠ none := by
  simp [State.beginNext, State.beginWrite, hqueue, hnone]

theorem written_idle (w : InFlight) (h : s.store.queue = []) : Idle (written s w) := by
  obtain ⟨hqueue, hnone⟩ := answered_store s w
  rw [written, beginNext_of_nil (hqueue.trans h), Idle, hqueue, hnone, h]

/-- R146, R166: the row of a completed write in RESTORE, with both points CLOSED. -/
theorem exec_recordWriteComplete {w : InFlight} (hw : s.store.inFlight = some w) (hrestoring : Restoring s)
    (ha : (s.point .a).state = .closed) (hb : (s.point .b).state = .closed) :
    exec .recordWriteComplete s = .next (written s w).leaveRestore := by
  have hclosed (p : Side) : ((written s w).point p).state = .closed := by
    rw [State.point, written_points]
    cases p with
    | a => exact ha
    | b => exact hb
  have hpower : ((s.advanceTo w.due).sealWrite w).power.state ≠ .powerfail := by
    have hsealed : ((s.advanceTo w.due).sealWrite w).power = (s.advanceTo w.due).power :=
      sealWrite_changesOnly _ _ .power (by simp)
    rw [hsealed, (advanceTo_power_items s w.due).2.2, (Prod.mk.inj hrestoring).1]
    simp
  have hrow : exec .recordWriteComplete s = .next ((s.advanceTo w.due).completeWrite w) := by
    simp [exec, execRecordWriteComplete, hw]
  rw [hrow, State.completeWrite, if_neg hpower, ← written, afterWrite_of_closed hclosed]

theorem written_restoring (w : InFlight) (hrestoring : Restoring s) : Restoring (written s w) :=
  Eq.trans (keeps_written s w .phase (by simp [Writing])) hrestoring

/-- R146: the next write keeps the part in RESTORE. -/
theorem written_of_queue (w : InFlight) {r : RecordId} {rest : List RecordId} (hrestoring : Restoring s)
    (hqueue : s.store.queue = r :: rest) : (written s w).leaveRestore.power.state = .restore := by
  obtain ⟨hq, hnone⟩ := answered_store s w
  have hwriting : (written s w).store.inFlight ≠ none := beginNext_inFlight (hq.trans hqueue) hnone
  rw [leaveRestore_of_writing hwriting]
  exact (Prod.mk.inj (written_restoring w hrestoring)).1

/-- R166: the policy, the field and the table that choose are those before the write. -/
theorem written_choice (s : State) (w : InFlight) : (written s w).power.policy = s.power.policy ∧
    (written s w).power.loaded = s.power.loaded ∧ (written s w).power.table = s.power.table := by
  have hschedule : schedule (written s w).power = schedule s.power := keeps_written s w .schedule (by simp [Writing])
  simp only [schedule, Prod.mk.injEq] at hschedule
  obtain ⟨_, _, _, htable, hpolicy⟩ := hschedule
  exact ⟨hpolicy, keeps_written s w .loaded (by simp [Writing]), htable⟩

/-- R188: the link-loss timer starts where the part leaves RESTORE for STANDBY. -/
theorem leaveRestore_lossDue (hrestoring : Restoring s) (hidle : Idle s) (h : s.power.nextState = .standby) :
    s.leaveRestore.link.lossDue =
      if s.link.timeout = 0 then none else some (s.leaveRestore.now + s.link.timeout * 1000) := by
  have hloss (u : State) : u.restartLoss.link.lossDue =
      if u.link.timeout = 0 then none else some (u.now + u.link.timeout * 1000) := rfl
  have htimeout : (chosenState s).enterStandby.link.timeout = s.link.timeout :=
    keeps_enterStandby (chosenState s) .timeout (by simp [Running])
  rw [leaveRestore_of_standby hrestoring hidle h, hloss, htimeout, restartLoss_now]

/-- R166, R167: with the queue drained the part enters STANDBY, and its record is being written. -/
theorem written_standby (w : InFlight) (hrestoring : Restoring s) (hqueue : s.store.queue = [])
    (hhold : s.power.policy = .hold ∨ (s.power.loaded ≠ .run ∧ s.power.loaded ≠ .waking)) :
    (written s w).leaveRestore.power.state = .standby ∧
    (written s w).leaveRestore.power.summary.next = some .standby ∧
    (written s w).leaveRestore.power.resetSeen = false ∧ (written s w).leaveRestore.power.pendingPrice = false ∧
    (written s w).leaveRestore.link.lossDue =
      (if s.link.timeout = 0 then none else some ((written s w).leaveRestore.now + s.link.timeout * 1000)) ∧
    (written s w).leaveRestore.recording .power ∧ (written s w).leaveRestore.noted .power := by
  have hleaving := written_restoring w hrestoring
  have hidle := written_idle w hqueue
  obtain ⟨hpolicy, hloaded, _⟩ := written_choice s w
  have hnext : (written s w).power.nextState = .standby := nextState_hold (by rwa [hpolicy, hloaded])
  obtain ⟨hchosen, hresetSeen, hpending⟩ := leaveRestore_chosen hleaving hidle
  obtain ⟨hstandby, hfield, hinFlight⟩ := leaveRestore_standby hleaving hidle hnext
  have htimeout : (written s w).link.timeout = s.link.timeout := keeps_written s w .timeout (by simp [Writing])
  have hloss := leaveRestore_lossDue hleaving hidle hnext
  rw [htimeout] at hloss
  refine ⟨hstandby, hchosen.trans (congrArg some hnext), hresetSeen, hpending, hloss, .inr ⟨_, hinFlight, ?_⟩,
    leaveRestore_noted hleaving hidle⟩
  rw [State.content, hfield]

/-- R166, R174: with the queue drained the part enters WAKING. -/
theorem written_waking (w : InFlight) (hrestoring : Restoring s) (hqueue : s.store.queue = [])
    (hresume : s.power.policy = .resume) (hfield : s.power.loaded = .run ∨ s.power.loaded = .waking) :
    (written s w).leaveRestore.power.summary.next = some .waking ∧
    (written s w).leaveRestore.power.resetSeen = false ∧ (written s w).leaveRestore.power.pendingPrice = false ∧
    (written s w).leaveRestore.noted .power ∧
    (∀ x rest, s.power.table = x :: rest → x.action = .heater .a → x.wait = .delay → x.time ≠ 0 →
      (written s w).leaveRestore.power.state = .waking ∧ (written s w).leaveRestore.power.stepIndex = 1) := by
  have hleaving := written_restoring w hrestoring
  have hidle := written_idle w hqueue
  obtain ⟨hpolicy, hloaded, htable⟩ := written_choice s w
  have hnext : (written s w).power.nextState = .waking := nextState_resume (hpolicy.trans hresume) (by rwa [hloaded])
  obtain ⟨hchosen, hresetSeen, hpending⟩ := leaveRestore_chosen hleaving hidle
  exact ⟨hchosen.trans (congrArg some hnext), hresetSeen, hpending, leaveRestore_noted hleaving hidle,
    fun x rest hx haction hwait htime => leaveRestore_waking hleaving hidle hnext (htable.trans hx) haction hwait htime⟩

/-- R166, R167: what the other blocks are left with where the part leaves RESTORE for STANDBY with its reader off. -/
theorem leaveRestore_closed (hrestoring : Restoring s) (hidle : Idle s) (h : s.power.nextState = .standby)
    (hoff : s.card.state = .off) : s.leaveRestore.captures = s.captures ∧ s.leaveRestore.card.state = .off ∧
    ∀ p, (s.leaveRestore.point p).state = .closed ∧ (s.leaveRestore.head p).power = false := by
  have hloss (u : State) : u.restartLoss.captures = u.captures ∧ u.restartLoss.card = u.card ∧
      u.restartLoss.points = u.points ∧ u.restartLoss.heads = u.heads := ⟨rfl, rfl, rfl, rfl⟩
  obtain ⟨hcaptures, hcard, hpoints, hheads⟩ := hloss (chosenState s).enterStandby
  have hclosed (p : Side) := enterStandby_closed (s := chosenState s) hoff p
  rw [leaveRestore_of_standby hrestoring hidle h]
  refine ⟨hcaptures.trans ((chosenState s).enterStandby_touches.1 .captures (by simp)), ?_, fun p => ⟨?_, ?_⟩⟩
  · rw [hcard]; exact (hclosed .a).2.2
  · rw [State.point, hpoints]; exact (hclosed p).1
  · rw [State.head, hheads]; exact (hclosed p).2.1

/-! ### Assembly -/

section
variable {since : Nat} {strap : Bool}

/-- R153: with no snapshot of a sale the row leaves `restored`. -/
theorem exec_without_sale (hsince : s.power.aboveSince = some since) (hwaiting : s.power.restoreWaiting = true)
    (hreset : s.pins.resetAsserted = false) (htamper : s.pins.tamperOpen = false)
    (hnosale : ∀ p r, s.store.records.findSnapshot p ≠ .valid (.ended r) ∧
      s.store.records.findSnapshot p ≠ .valid (.power r)) :
    exec (.restoreWaitComplete strap) s = .next (restored s since strap) := by
  have hnone (p : Side) : (loadedSnapshot (s.store.records.findSnapshot p)).sale? = none :=
    loadedSnapshot_sale? (hnosale p)
  rw [exec_restoreWaitComplete strap hsince hwaiting hreset htamper, settleSnapshot_loaded (hnone .a),
    settleSnapshot_loaded (hnone .b), ← restored]

/-- R161 to R166: a new part, or one that has lost its records and its backup supply, goes to STANDBY. -/
theorem restored_blank (hblank : s.store.records = Records.blank) (hcause : s.power.cause = .dark)
    (hstate : s.power.state = .restore) (hlost : s.power.clockKept = false) :
    (restored s since strap).power.state = .standby ∧ (restored s since strap).power.summary.next = some .standby ∧
    (restored s since strap).power.summary.findings = [⟨.clockLost, .supply, none⟩] ∧
    (restored s since strap).captures =
      Captures.empty.set .supply (Capture.empty.arrive ⟨.clockLost, .note, none, none⟩) ∧
    (∀ p, ((restored s since strap).point p).state = .closed ∧ ((restored s since strap).head p).power = false) ∧
    (restored s since strap).card.state = .off ∧
    (restored s since strap).store.inFlight =
      some ⟨.power ⟨.standby, false⟩, (restored s since strap).now + 1, false⟩ ∧
    (restored s since strap).noted .power ∧ (restored s since strap).noted .price ∧
    (restored s since strap).noted (.fault .supply) := by
  have hrestoring : Restoring (loaded s since strap).summarize := summarize_restoring (loaded_restoring hstate)
  have hidle : Idle (loaded s since strap).summarize := summarize_idle loaded_idle
  have hpending : (loaded s since strap).summarize.prices.pending = none := (summarize_pending _).trans loaded_pending
  have hsummary : Keeps ∅ (loaded s since strap) (loaded s since strap).summarize := keeps_summarize _
  have hleft := keeps_leaveRestore hrestoring hidle hpending
  have hsettings : (loaded s since strap).summarize.settings = .default := by
    rw [kept_settings hsummary (by simp), hblank]
    rfl
  have hnext : (loaded s since strap).summarize.power.nextState = .standby :=
    nextState_hold (.inl (choice_of_settings hsettings).1)
  have hoff : (loaded s since strap).summarize.card.state = .off :=
    (hsummary .cardState (by simp)).trans (same_loaded (i := .cardState) rfl)
  obtain ⟨hfindings, hcaptures, hnoted⟩ := loaded_finding (since := since) (strap := strap) hblank hcause hstate hlost
  obtain ⟨hleftCaptures, hcard, hclosed⟩ := leaveRestore_closed hrestoring hidle hnext hoff
  obtain ⟨hstandby, _, hinFlight⟩ := leaveRestore_standby hrestoring hidle hnext
  obtain ⟨hchosen, _⟩ := leaveRestore_chosen hrestoring hidle
  have hkept := keeps_restored (since := since) (strap := strap) hstate
  have hfound := (hkept .findings (by simp [Leaving, Running])).trans hfindings
  have hfault := hkept.noted (by simp [Leaving, Running]) hnoted
  have hprice := hleft.noted (by simp [Leaving, Running]) (summarize_noted (loaded_restoring hstate)).2
  rw [restored] at hfound hfault ⊢
  exact ⟨hstandby, hchosen.trans (congrArg some hnext), hfound,
    hleftCaptures.trans ((summarize_captures _).trans hcaptures), hclosed, hcard, hinFlight,
    leaveRestore_noted hrestoring hidle, hprice, hfault⟩

/-- R153: the row with one snapshot of a sale: settled already, or of 0 cL. -/
theorem exec_of_settled (hsince : s.power.aboveSince = some since) (hwaiting : s.power.restoreWaiting = true)
    (hreset : s.pins.resetAsserted = false) (htamper : s.pins.tamperOpen = false) {p : Side} {r : SaleRecord} {x : Snapshot}
    {c : Totals} (hx : s.store.records.findSnapshot p = .valid x) (hsale : x.sale? = some r)
    (hother : s.store.records.findSnapshot (Side.other p) = .blank) (hc : s.store.records.findTotals r.hose = .valid c)
    (hsettled : r.displayed = 0 ∨ c.last = r.number) :
    exec (.restoreWaitComplete strap) s = .next (restored s since strap) := by
  have htotals : (loaded s since strap).totals r.hose = c := by
    rw [kept_totals (lost := ∅) (Keeps.refl _) r.hose (by simp), hc, loadedTotals]
  have hnone : ((loaded s since strap).store.snapshots.get (Side.other p)).sale? = none := by
    rw [loaded_snapshot, hother]
    rfl
  rw [exec_restoreWaitComplete strap hsince hwaiting hreset htamper, settleSnapshot_both hnone,
    settleSnapshot_of_settled (r := r) (by rw [loaded_snapshot, hx, loadedSnapshot, hsale]) (by rwa [htotals]), ← restored]

/-- R153: the row with one snapshot of a sale that its slot's totals do not name. -/
theorem exec_of_new (hsince : s.power.aboveSince = some since) (hstate : s.power.state = .restore)
    (hwaiting : s.power.restoreWaiting = true) (hreset : s.pins.resetAsserted = false) (htamper : s.pins.tamperOpen = false)
    {p : Side} {r : SaleRecord} {x : Snapshot} {c : Totals} (hx : s.store.records.findSnapshot p = .valid x)
    (hkind : x = .ended r ∨ x = .power r) (hother : s.store.records.findSnapshot (Side.other p) = .blank)
    (hc : s.store.records.findTotals r.hose = .valid c) (hvolume : r.displayed ≠ 0) (hnew : c.last ≠ r.number) :
    ∃ t, exec (.restoreWaitComplete strap) s = .next t ∧ Settled (loaded s since strap) t p r := by
  have htotals : (loaded s since strap).totals r.hose = c := by
    rw [kept_totals (lost := ∅) (Keeps.refl _) r.hose (by simp), hc, loadedTotals]
  have hnone : ((loaded s since strap).store.snapshots.get (Side.other p)).sale? = none := by
    rw [loaded_snapshot, hother]
    rfl
  have hsnapshot : (loaded s since strap).store.snapshots.get p = x := by rw [loaded_snapshot, hx, loadedSnapshot]
  have hlast : ((loaded s since strap).totals r.hose).last ≠ r.number := by rwa [htotals]
  have hsettled : Settled (loaded s since strap) ((loaded s since strap).settleSnapshot p) p r := by
    rcases hkind with rfl | rfl
    · exact settled_ended hvolume hlast loaded_idle hsnapshot
    · exact settled_power hvolume hlast loaded_idle (loaded_restoring hstate) hsnapshot
  have hsummary := hsettled.summarize
  have hwriting : ((loaded s since strap).settleSnapshot p).summarize.store.inFlight ≠ none := by
    rw [(Prod.mk.inj hsummary.writes).2]
    simp
  refine ⟨_, ?_, hsummary⟩
  rw [exec_restoreWaitComplete strap hsince hwaiting hreset htamper, settleSnapshot_both hnone,
    leaveRestore_of_writing hwriting]

end

/-- Settles O59: each item is loaded by its check and kept to the end; the sale of a snapshot is settled or left; the choice of the
next state is made where no write is under way. -/
theorem restoreLoadsTheRecords : Obligations.RestoreLoadsTheRecords := by
  refine ⟨fun s strap since hsince hstate hwaiting hreset htamper =>
      ⟨fun hnosale => ?_, fun p r x hx hkind hother c hc => ?_⟩,
    fun s w hw hstate hwaiting ha hb => ?_⟩
  · have hk := keeps_restored (since := since) (strap := strap) hstate
    obtain ⟨hspeed, hup, hqueue⟩ := kept_line hk (by simp [Leaving, Running])
    have hmetrology := kept_metrology hk (by simp [Leaving, Running])
    have hhalt (p : Side) := kept_holdsHalt hk p (by simp [Leaving, Running])
    have hsettings := kept_settings hk fun i hi hl => absurd ((check_of_leaving hl).symm.trans hi) (by simp)
    obtain ⟨hactive, hgeneration⟩ := kept_prices hk (by simp [Leaving, Running])
    have htotals (h : Slot) := kept_totals hk h (by simp [Leaving, Running])
    have hsnapshot (p : Side) := kept_snapshot hk p (by simp [Leaving, Running])
    obtain ⟨hsummary, hkept, hclock⟩ := kept_clock hk (by simp [Leaving, Running])
    obtain ⟨hresetSeen, hpending⟩ := restored_marks (since := since) (strap := strap) hstate
    refine ⟨restored s since strap, exec_without_sale hsince hwaiting hreset htamper hnosale,
      kept_time hk (by simp [Leaving, Running]), hspeed, hup, hqueue,
      fun p => kept_point hk p (by simp [Leaving, Running]), fun m => kept_meter hk (by simp [Leaving, Running]) m,
      fun c hc => by rw [hmetrology, hc, loadedMetrology], fun hc => by rw [hmetrology, hc, loadedMetrology],
      fun hc => ⟨by rw [hmetrology, hc, loadedMetrology], hhalt .a hc, hhalt .b hc⟩,
      fun c hc => by rw [hsettings, hc, loadedSettings], fun hc => ?_,
      fun c hc => by rw [hactive, hgeneration, hc, loadedPrices]; exact ⟨rfl, rfl⟩, fun hc => ?_,
      fun h c hc => by rw [htotals, hc, loadedTotals], fun h hc => by rw [htotals, hc, loadedTotals],
      fun h hc => by rw [htotals, hc, loadedTotals], fun p hp => ?_, fun p hp => ?_,
      kept_cause hk (by simp [Leaving, Running]), hsummary, hkept, hclock, fun c f hc hf => ?_,
      fun hblank hcause hlost => restored_blank hblank hcause hstate hlost⟩
    · rcases hc with hc | hc <;> rw [hsettings, hc, loadedSettings]
    · rcases hc with hc | hc <;> rw [hactive, hgeneration, hc, loadedPrices] <;> exact ⟨rfl, rfl⟩
    · obtain ⟨hworking, hlast, _, hfault⟩ := hsnapshot p
      rw [hp] at hworking hlast hfault
      exact ⟨hworking, hlast, hfault rfl⟩
    · obtain ⟨hworking, hlast, _, _⟩ := hsnapshot p
      rw [hp] at hworking hlast
      exact ⟨hworking, hlast⟩
    · exact ⟨kept_loaded hk (by simp [Leaving, Running]) hf, hresetSeen, hpending, restored_choice hstate hc hf⟩
  · have hsale : x.sale? = some r := by rcases hkind with rfl | rfl <;> rfl
    have hfigures : x.lastSale = .figures r.displayed r.money r.unverified := by rcases hkind with rfl | rfl <;> rfl
    by_cases hsettled : r.displayed = 0 ∨ c.last = r.number
    · have hk := keeps_restored (since := since) (strap := strap) hstate
      obtain ⟨hsnapshot, hnumber, hlast, hstack⟩ := kept_sale hk hx hsale hfigures (by simp [Leaving, Running])
      exact ⟨restored s since strap, exec_of_settled hsince hwaiting hreset htamper hx hsale hother hc hsettled,
        hsnapshot, hnumber, hlast, hstack, fun _ => restored_sale hstate hc,
        fun hvolume hnew => absurd hsettled (not_or.mpr ⟨hvolume, hnew⟩)⟩
    · obtain ⟨hvolume, hnew⟩ := not_or.mp hsettled
      obtain ⟨t, hexec, ht⟩ :=
        exec_of_new (strap := strap) hsince hstate hwaiting hreset htamper hx hkind hother hc hvolume hnew
      obtain ⟨hsnapshot, hnumber, hlast, hstack⟩ :=
        kept_sale ht.keeps hx hsale hfigures (by cases p <;> simp [Settling, Side.other])
      exact ⟨t, hexec, hsnapshot, hnumber, hlast, hstack, fun h => absurd h hsettled,
        fun _ _ => settled_sale hstate hc hx ht⟩
  · have hrestoring : Restoring s := by rw [Restoring, hstate, hwaiting]
    have hexec := exec_recordWriteComplete hw hrestoring ha hb
    exact ⟨fun r rest hqueue => ⟨_, hexec, written_of_queue w hrestoring hqueue⟩,
      fun hqueue hhold => ⟨_, hexec, written_standby w hrestoring hqueue hhold⟩,
      fun hqueue hresume hfield => ⟨_, hexec, written_waking w hrestoring hqueue hresume hfield⟩⟩

end Sys2Proof.Proofs.Restore
end
